-- ==== Sys2Proof/Word.lean ====
section
/-! DEFINITION. The word types of IDEC. A timestamp is a Nat, an unbounded natural of TICK units that never
wraps (10_state.md R12); everything the spec gives a width is a bit vector of that width. -/

namespace Sys2Proof

/-- One register byte of the sensor (20_memory.md R41). -/
abbrev Byte := BitVec 8

/-- A `SRC4` interrupt source code (30_encoding.md R71). -/
abbrev Code4 := BitVec 4

/-- A `CMD16` command word (30_encoding.md R72). -/
abbrev CmdWord := BitVec 16

/-- The 12-bit `arg` field of a command word (30_encoding.md R72). -/
abbrev Arg12 := BitVec 12

/-- A sensor register address, 8 bits (20_memory.md R41). -/
abbrev RegAddr := BitVec 8

/-- The 7-bit BusAddress (20_memory.md R41). -/
abbrev BusAddr := BitVec 7

/-- The underlying cause a failed bus attempt reports (20_memory.md R46). The spec gives it no form:
it is an identifier (assumption 14). -/
abbrev Cause := Nat

end Sys2Proof
end

