-- ==== Sys2Proof/Syntax.lean ====
section
/-! DEFINITION. The syntax of IDEC: the word formats and one constructor of `Instr` per row of
spec/opcode_table.json, in the table's order (00_scope.md R2, 30_encoding.md R70 to R80). -/

namespace Sys2Proof

/-- The formats of spec/opcode_table.json. A format belongs to a port, and the port says in which format a word
is read (30_encoding.md R82). -/
inductive Format where
  /-- the 1-bit strobe of port `irq_edge` -/
  | edge1
  /-- the command word of port `cmd` -/
  | cmd16
  /-- the interrupt source code cut from the byte read at `REG_INT` -/
  | src4
  /-- the byte read at `REG_DIST` -/
  | regByte
  /-- the three energy bytes, MSB in the high bits -/
  | regByte3
  /-- the gain register's byte (surrounding driver) -/
  | gainReg
  /-- the status register's byte that holds the minimum-strike code (surrounding driver) -/
  | statusReg
  /-- the source-mask register's byte (surrounding driver) -/
  | srcMaskReg
  deriving DecidableEq, Repr, Inhabited

/-- How many bits a word of the format has. -/
def Format.bits : Format → Nat
  | .edge1 => 1
  | .cmd16 => 16
  | .src4 => 4
  | .regByte => 8
  | .regByte3 => 24
  | .gainReg => 8
  | .statusReg => 8
  | .srcMaskReg => 8

/-- The operations of IDEC, one constructor per row of spec/opcode_table.json. Operands are the bits the row leaves
free, most significant operand first, so that no bit of a word is lost. -/
inductive Instr where
  /-- EDGE (R140) -/
  | edge
  /-- START (R160) -/
  | start
  /-- STOP (R177) -/
  | stop
  /-- SERVICE (R161) -/
  | service
  /-- RUN (R176) -/
  | run
  /-- READ_EVENT d (R143), POLL d when d > 0 (R145) -/
  | readEvent (d : Arg12)
  /-- SET_OBSERVER id (R174) -/
  | setObserver (id : Arg12)
  /-- TAIL n (R175) -/
  | tail (n : Arg12)
  /-- reserved op 0x0 (R78) -/
  | reservedOp0 (arg : Arg12)
  /-- reserved ops 0x8 to 0xF, `arg` being the word's low 15 bits (R78) -/
  | reservedOp8F (arg : BitVec 15)
  /-- START with a nonzero arg (R78) -/
  | startNonzeroArg (arg : Arg12)
  /-- STOP with a nonzero arg (R78) -/
  | stopNonzeroArg (arg : Arg12)
  /-- SERVICE with a nonzero arg (R78) -/
  | serviceNonzeroArg (arg : Arg12)
  /-- RUN with a nonzero arg (R78) -/
  | runNonzeroArg (arg : Arg12)
  /-- source code 1xxx (R100) -/
  | srcLightning (x : BitVec 3)
  /-- source code 01xx (R100) -/
  | srcDisturber (x : BitVec 2)
  /-- source code 00x1 (R100) -/
  | srcNoise (x : BitVec 1)
  /-- source code 00x0 (R100) -/
  | srcNone (x : BitVec 1)
  /-- the distance byte, as read (R121) -/
  | dist6 (b : Byte)
  /-- the three energy bytes, as read (R122) -/
  | energy21 (msb mid lsb : Byte)
  /-- gain byte xx10010p (R102) -/
  | gainIndoor (x : BitVec 2) (p : BitVec 1)
  /-- gain byte xx01110p (R102) -/
  | gainOutdoor (x : BitVec 2) (p : BitVec 1)
  /-- status byte xx00xxxx (R103) -/
  | minStrikes1 (hi : BitVec 2) (lo : BitVec 4)
  /-- status byte xx01xxxx (R103) -/
  | minStrikes5 (hi : BitVec 2) (lo : BitVec 4)
  /-- status byte xx10xxxx (R103) -/
  | minStrikes9 (hi : BitVec 2) (lo : BitVec 4)
  /-- status byte xx11xxxx (R103) -/
  | minStrikes16 (hi : BitVec 2) (lo : BitVec 4)
  /-- source-mask byte 00xxxxxx (R105) -/
  | divider16 (lo : BitVec 6)
  /-- source-mask byte 01xxxxxx (R105) -/
  | divider32 (lo : BitVec 6)
  /-- source-mask byte 10xxxxxx (R105) -/
  | divider64 (lo : BitVec 6)
  /-- source-mask byte 11xxxxxx (R105) -/
  | divider128 (lo : BitVec 6)
  deriving DecidableEq, Repr, Inhabited

/-- The format of an instruction's word: the `format` column of spec/opcode_table.json. -/
def Instr.format : Instr → Format
  | .edge => .edge1
  | .start | .stop | .service | .run | .readEvent _ | .setObserver _ | .tail _ | .reservedOp0 _ | .reservedOp8F _
  | .startNonzeroArg _ | .stopNonzeroArg _ | .serviceNonzeroArg _ | .runNonzeroArg _ => .cmd16
  | .srcLightning _ | .srcDisturber _ | .srcNoise _ | .srcNone _ => .src4
  | .dist6 _ => .regByte
  | .energy21 _ _ _ => .regByte3
  | .gainIndoor _ _ | .gainOutdoor _ _ => .gainReg
  | .minStrikes1 _ _ | .minStrikes5 _ _ | .minStrikes9 _ _ | .minStrikes16 _ _ => .statusReg
  | .divider16 _ | .divider32 _ | .divider64 _ | .divider128 _ => .srcMaskReg

end Sys2Proof
end

