-- ==== Sys2Proof/WellFormed.lean ====
section
/-! DEFINITION. Which instruction terms stand for a word. Only the four NONZERO_ARG rows carry a condition:
their `arg` is nonzero, because the word with `arg = 0` is the command itself, whose row comes first
(spec/opcode_table.json, 30_encoding.md R78 (b)). Every operand of every other row is admitted. -/

namespace Sys2Proof

/-- The instruction term stands for a word that decodes to it. -/
def Instr.wellFormed : Instr → Bool
  | .startNonzeroArg arg => arg != 0
  | .stopNonzeroArg arg => arg != 0
  | .serviceNonzeroArg arg => arg != 0
  | .runNonzeroArg arg => arg != 0
  | .edge | .start | .stop | .service | .run | .readEvent _ | .setObserver _ | .tail _ | .reservedOp0 _
  | .reservedOp8F _ | .srcLightning _ | .srcDisturber _ | .srcNoise _ | .srcNone _ | .dist6 _ | .energy21 _ _ _
  | .gainIndoor _ _ | .gainOutdoor _ _ | .minStrikes1 _ _ | .minStrikes5 _ _ | .minStrikes9 _ _
  | .minStrikes16 _ _ | .divider16 _ | .divider32 _ | .divider64 _ | .divider128 _ => true

end Sys2Proof
end

