-- ==== Sys2Proof/Decode.lean ====
section
/-! DEFINITION. The decoder of every format and, after it, the encoder (30_encoding.md R70 to R80,
spec/opcode_table.json). A word is read in the format of the port it stands on: the formats overlap as bit
patterns and nothing in a word says which format it has (30_encoding.md R70, R82). -/

namespace Sys2Proof

/-- Why a word is no instruction of its format. -/
inductive Reject where
  /-- the word has bits above the format's width -/
  | wordTooWide
  /-- the strobe of `irq_edge` is 0: no edge (30_encoding.md R82) -/
  | noEdge
  /-- bits [5:1] of the gain byte are neither preset (41_register_codecs.md R102; 91_not_in_source.md N18) -/
  | gainNotAPreset
  deriving DecidableEq, Repr, Inhabited

/-- `CMD16`: op = w[15:12], arg = w[11:0] (R72), the map of R73, and the refused words of R78 (a) and (b). Every
16-bit word decodes. -/
def decodeCmd (w : CmdWord) : Instr :=
  let arg : Arg12 := w.extractLsb' 0 12
  match (w.extractLsb' 12 4).toNat with
  | 0 => .reservedOp0 arg
  | 1 => if arg = 0 then .start else .startNonzeroArg arg
  | 2 => if arg = 0 then .stop else .stopNonzeroArg arg
  | 3 => if arg = 0 then .service else .serviceNonzeroArg arg
  | 4 => if arg = 0 then .run else .runNonzeroArg arg
  | 5 => .readEvent arg
  | 6 => .setObserver arg
  | 7 => .tail arg
  | _ => .reservedOp8F (w.extractLsb' 0 15)

/-- `SRC4`: the four rows of R71, by fixed priority. Every 4-bit code decodes; the don't-care bits are kept. -/
def decodeSrc (c : Code4) : Instr :=
  if c.getLsbD 3 then .srcLightning (c.extractLsb' 0 3)
  else if c.getLsbD 2 then .srcDisturber (c.extractLsb' 0 2)
  else if c.getLsbD 0 then .srcNoise (c.extractLsb' 1 1)
  else .srcNone (c.extractLsb' 1 1)

/-- `GAINREG`: bits [5:1] hold a preset, bit 0 the power-down flag (R102). -/
def decodeGain (b : Byte) : Except Reject Instr :=
  if b.extractLsb' 1 5 = 0b10010#5 then .ok (.gainIndoor (b.extractLsb' 6 2) (b.extractLsb' 0 1))
  else if b.extractLsb' 1 5 = 0b01110#5 then .ok (.gainOutdoor (b.extractLsb' 6 2) (b.extractLsb' 0 1))
  else .error .gainNotAPreset

/-- `STATUSREG`: the minimum-strike code in bits [5:4] (R103). -/
def decodeStrikes (b : Byte) : Instr :=
  let hi := b.extractLsb' 6 2
  let lo := b.extractLsb' 0 4
  match (b.extractLsb' 4 2).toNat with
  | 0 => .minStrikes1 hi lo
  | 1 => .minStrikes5 hi lo
  | 2 => .minStrikes9 hi lo
  | _ => .minStrikes16 hi lo

/-- `SRCMASKREG`: the divider code in bits [7:6] (R105). -/
def decodeDivider (b : Byte) : Instr :=
  let lo := b.extractLsb' 0 6
  match (b.extractLsb' 6 2).toNat with
  | 0 => .divider16 lo
  | 1 => .divider32 lo
  | 2 => .divider64 lo
  | _ => .divider128 lo

/-- The decoder: a word on the port of format `f`. Total on every number; a number too wide for the format is
rejected by name. -/
def decode (f : Format) (w : Nat) : Except Reject Instr :=
  if 2 ^ f.bits ≤ w then .error .wordTooWide
  else match f with
    | .edge1 => if w = 1 then .ok .edge else .error .noEdge
    | .cmd16 => .ok (decodeCmd (BitVec.ofNat 16 w))
    | .src4 => .ok (decodeSrc (BitVec.ofNat 4 w))
    | .regByte => .ok (.dist6 (BitVec.ofNat 8 w))
    | .regByte3 =>
      let v := BitVec.ofNat 24 w
      .ok (.energy21 (v.extractLsb' 16 8) (v.extractLsb' 8 8) (v.extractLsb' 0 8))
    | .gainReg => decodeGain (BitVec.ofNat 8 w)
    | .statusReg => .ok (decodeStrikes (BitVec.ofNat 8 w))
    | .srcMaskReg => .ok (decodeDivider (BitVec.ofNat 8 w))

/-- A command word from its two fields (R72). -/
def cmdWord (op : BitVec 4) (arg : Arg12) : CmdWord := op ++ arg

/-- The command word of a `CMD16` instruction, and word 0 for an instruction of another format. -/
def encodeCmd : Instr → CmdWord
  | .start => cmdWord 0x1 0
  | .stop => cmdWord 0x2 0
  | .service => cmdWord 0x3 0
  | .run => cmdWord 0x4 0
  | .readEvent d => cmdWord 0x5 d
  | .setObserver id => cmdWord 0x6 id
  | .tail n => cmdWord 0x7 n
  | .reservedOp0 arg => cmdWord 0x0 arg
  | .reservedOp8F arg => 1#1 ++ arg
  | .startNonzeroArg arg => cmdWord 0x1 arg
  | .stopNonzeroArg arg => cmdWord 0x2 arg
  | .serviceNonzeroArg arg => cmdWord 0x3 arg
  | .runNonzeroArg arg => cmdWord 0x4 arg
  | .edge | .srcLightning _ | .srcDisturber _ | .srcNoise _ | .srcNone _ | .dist6 _ | .energy21 _ _ _
  | .gainIndoor _ _ | .gainOutdoor _ _ | .minStrikes1 _ _ | .minStrikes5 _ _ | .minStrikes9 _ _
  | .minStrikes16 _ _ | .divider16 _ | .divider32 _ | .divider64 _ | .divider128 _ => 0

/-- The register byte of an instruction of the surrounding driver's three formats, and byte 0 for another. -/
def encodeField : Instr → Byte
  | .gainIndoor x p => x ++ 0b10010#5 ++ p
  | .gainOutdoor x p => x ++ 0b01110#5 ++ p
  | .minStrikes1 hi lo => hi ++ 0b00#2 ++ lo
  | .minStrikes5 hi lo => hi ++ 0b01#2 ++ lo
  | .minStrikes9 hi lo => hi ++ 0b10#2 ++ lo
  | .minStrikes16 hi lo => hi ++ 0b11#2 ++ lo
  | .divider16 lo => 0b00#2 ++ lo
  | .divider32 lo => 0b01#2 ++ lo
  | .divider64 lo => 0b10#2 ++ lo
  | .divider128 lo => 0b11#2 ++ lo
  | .edge | .start | .stop | .service | .run | .readEvent _ | .setObserver _ | .tail _ | .reservedOp0 _
  | .reservedOp8F _ | .startNonzeroArg _ | .stopNonzeroArg _ | .serviceNonzeroArg _ | .runNonzeroArg _
  | .srcLightning _ | .srcDisturber _ | .srcNoise _ | .srcNone _ | .dist6 _ | .energy21 _ _ _ => 0

/-- The encoder: the word of an instruction in its own format. -/
def encode : Instr → Nat
  | .edge => 1
  | .srcLightning x => (1#1 ++ x).toNat
  | .srcDisturber x => (0b01#2 ++ x).toNat
  | .srcNoise x => (0b00#2 ++ x ++ 1#1).toNat
  | .srcNone x => (0b00#2 ++ x ++ 0#1).toNat
  | .dist6 b => b.toNat
  | .energy21 msb mid lsb => (msb ++ mid ++ lsb).toNat
  | .start => (encodeCmd .start).toNat
  | .stop => (encodeCmd .stop).toNat
  | .service => (encodeCmd .service).toNat
  | .run => (encodeCmd .run).toNat
  | .readEvent d => (encodeCmd (.readEvent d)).toNat
  | .setObserver id => (encodeCmd (.setObserver id)).toNat
  | .tail n => (encodeCmd (.tail n)).toNat
  | .reservedOp0 arg => (encodeCmd (.reservedOp0 arg)).toNat
  | .reservedOp8F arg => (encodeCmd (.reservedOp8F arg)).toNat
  | .startNonzeroArg arg => (encodeCmd (.startNonzeroArg arg)).toNat
  | .stopNonzeroArg arg => (encodeCmd (.stopNonzeroArg arg)).toNat
  | .serviceNonzeroArg arg => (encodeCmd (.serviceNonzeroArg arg)).toNat
  | .runNonzeroArg arg => (encodeCmd (.runNonzeroArg arg)).toNat
  | .gainIndoor x p => (encodeField (.gainIndoor x p)).toNat
  | .gainOutdoor x p => (encodeField (.gainOutdoor x p)).toNat
  | .minStrikes1 hi lo => (encodeField (.minStrikes1 hi lo)).toNat
  | .minStrikes5 hi lo => (encodeField (.minStrikes5 hi lo)).toNat
  | .minStrikes9 hi lo => (encodeField (.minStrikes9 hi lo)).toNat
  | .minStrikes16 hi lo => (encodeField (.minStrikes16 hi lo)).toNat
  | .divider16 lo => (encodeField (.divider16 lo)).toNat
  | .divider32 lo => (encodeField (.divider32 lo)).toNat
  | .divider64 lo => (encodeField (.divider64 lo)).toNat
  | .divider128 lo => (encodeField (.divider128 lo)).toNat

/-- The instruction a register byte of the surrounding driver encodes; none where it encodes no setting. -/
def driverWord (f : Format) (b : Byte) : Option Instr :=
  match f with
  | .gainReg => (decodeGain b).toOption
  | .statusReg => some (decodeStrikes b)
  | .srcMaskReg => some (decodeDivider b)
  | .edge1 | .cmd16 | .src4 | .regByte | .regByte3 => none

/-- The format in which a bare word of the opcode table is read, when all that is known of it is its length in
bits. Several formats are 8 bits or fewer wide, so the length does not settle the port: the strobe 1 is an edge,
any other byte below 16 a source code, a byte that holds a gain preset the gain register's, of the rest one with
bits [7:6] clear the status register's, and the others the source-mask register's (DESIGN CHOICE, assumption 2;
the machine itself never uses this: a port has one format). -/
def tableFormat (nbits w : Nat) : Option Format :=
  if nbits ≤ 1 then some .edge1
  else if nbits ≤ 4 then some .src4
  else if nbits ≤ 8 then
    if w = 1 then some .edge1
    else if w < 16 then some .src4
    else match decodeGain (BitVec.ofNat 8 w) with
      | .ok _ => some .gainReg
      | .error _ => if w < 64 then some .statusReg else some .srcMaskReg
  else if nbits ≤ 16 then some .cmd16
  else if nbits ≤ 24 then some .regByte3
  else none

/-- The instruction the decoder reads from a word of the opcode table. -/
def decodeTableWord (nbits w : Nat) : Option Instr :=
  match tableFormat nbits w with
  | none => none
  | some f =>
    match decode f w with
    | .ok i => some i
    | .error _ => none

end Sys2Proof
end

