-- ==== Sys2Proof/Machine/Types.lean ====
section
/-! DEFINITION. The plain data types the state is made of: kinds, Events, the aggregate, the sequencer's phases,
the ports' traffic, the environment's moves, and the surrounding driver's calls. -/

namespace Sys2Proof.Machine

/-- An event's kind (10_state.md R17). -/
inductive Kind where
  | lightning | disturber | noise
  deriving DecidableEq, Repr, Inhabited

/-- An Event (10_state.md R17): `raw` is the 4-bit source code as read, bit 1 included. -/
structure Event where
  ts : Nat
  kind : Kind
  distanceKm : Option (BitVec 6)
  energy : Option (BitVec 21)
  raw : Code4
  deriving DecidableEq, Repr, Inhabited

/-- The aggregate state `AGG`: the six published fields (10_state.md R24, 30_encoding.md R83). The types of
`distance`, `energy` and `timestamp` are the model's (assumption 10). -/
structure Agg where
  /-- `alert` is ON -/
  alert : Bool
  distance : Option (BitVec 6)
  energy : Option (BitVec 21)
  disturber : Bool
  noise : Bool
  timestamp : Nat
  deriving DecidableEq, Repr, Inhabited

/-- `PHASE`, the thirteen values of 10_state.md R22. -/
inductive Phase where
  | idle | sEntry | sConsume | sReadInt | sClassify | sReadDist | sReadEnergy | sAppend | sObserve | sThrottle
  | sKeepalive | pSleep | rBetween
  deriving DecidableEq, Repr, Inhabited

/-- Which of the three micro-steps of a split consume runs next (20_memory.md R54, `CONSUME_SPLIT = true`). -/
inductive SplitStage where
  | readPending | compare | clear
  deriving DecidableEq, Repr, Inhabited

/-- The local values of the operation in progress: what the pseudocode of R143 and R161 names `c`, `t`, `dist`, `l`,
`m`, `e`, held between micro-steps. -/
structure Work where
  /-- READ_EVENT runs as a host command, not as the drain's call (R143) -/
  byHost : Bool := false
  /-- stage of a split consume -/
  split : SplitStage := .readPending
  /-- source code `c` -/
  code : Code4 := 0
  /-- time of classification `t` -/
  ts : Nat := 0
  /-- masked distance `dist` -/
  dist : BitVec 6 := 0
  /-- energy bytes read so far, LSB first -/
  energyBytes : List Byte := []
  /-- the classified Event `e` of the drain's iteration -/
  ev : Option Event := none
  deriving DecidableEq, Repr, Inhabited

/-- The response codes that exist (30_encoding.md R77); 5 to 7 are never produced. -/
inductive Status where
  | ok | busError | validationError | notInitialized | refused
  deriving DecidableEq, Repr, Inhabited

/-- The data of a response. -/
inductive RspData where
  | nothing
  /-- SERVICE: `DRAIN_N` (R161) -/
  | count (n : Nat)
  /-- READ_EVENT: the optional Event (R143) -/
  | event (e : Option Event)
  /-- TAIL: the records, oldest first (R175) -/
  | events (es : List Event)
  /-- BUS_ERROR: attempt count and last cause (R46, R77) -/
  | busFailure (attempts : Nat) (cause : Cause)
  deriving DecidableEq, Repr, Inhabited

/-- The "/event" payload (30_encoding.md R83). -/
structure EventMsg where
  ts : Nat
  type : Kind
  distanceKm : Option (BitVec 6)
  energy : Option (BitVec 21)
  deriving DecidableEq, Repr, Inhabited

/-- The AFE gain presets (41_register_codecs.md R102). -/
inductive GainMode where
  | indoor | outdoor
  deriving DecidableEq, Repr, Inhabited

/-- The interrupt-output source (42_sensor_accessors.md R129). -/
inductive OscSource where
  | none | antenna | system | internal
  deriving DecidableEq, Repr, Inhabited

/-- SensorConfig (42_sensor_accessors.md R128). Numeric fields are unbounded so that the range check has something to
reject. -/
structure SensorConfig where
  mode : GainMode
  noiseFloor : Nat
  watchdog : Nat
  spike : Nat
  minStrikes : Nat
  /-- the tuning capacitance in pF, any integer, also one between two 8 pF steps: R128 names the steps, and this field's
  unit is the model's (DESIGN CHOICE, assumption 29) -/
  tuningPf : Int
  disturberEnabled : Bool
  deriving DecidableEq, Repr, Inhabited

/-- The surrounding driver's states (42_sensor_accessors.md R126). -/
inductive DriverState where
  | uninitialized | initialized | configured
  deriving DecidableEq, Repr, Inhabited

/-- A RegisterField: register address, bit mask, bit shift (20_memory.md R41). -/
structure RegField where
  reg : RegAddr
  mask : Byte
  shift : Nat
  deriving DecidableEq, Repr, Inhabited

/-- Where a field of `8 - room` bits lies whose register and position the source leaves open: at most `room` bits lie below
it, so the field lies inside its byte whatever the instance (30_encoding.md R79, 20_memory.md R51; assumption 30). -/
structure FieldPos (room : Nat) where
  reg : RegAddr
  shift : Fin (room + 1)
  deriving DecidableEq, Repr, Inhabited

/-- The place of a 4-bit field (R79: a range 0 to 15). -/
abbrev Pos4 := FieldPos 4

/-- The place of a 3-bit field (R79: a range 0 to 7). -/
abbrev Pos3 := FieldPos 5

/-- The place of a single bit (20_memory.md R51: `clearStatistics` pulses "one bit"). -/
abbrev PosBit := FieldPos 7

/-- The operations of the surrounding driver (42_sensor_accessors.md R127 to R132, 20_memory.md R43 to R45). -/
inductive DrvCall where
  | begin
  | configure (c : SensorConfig) (src : OscSource)
  /-- write the setting a register byte of format `f` encodes -/
  | field (f : Format) (b : Byte)
  | setMode (m : GainMode)
  | setMinStrikes (n : Nat)
  | setDivider (ratio : Nat)
  | setNoiseFloor (v : Nat)
  | setWatchdog (v : Nat)
  | setSpike (v : Nat)
  | setTuningCaps (pf : Int)
  | setDisturber (enabled : Bool)
  | setOscSource (src : OscSource)
  | power (down : Bool)
  | clearStatistics
  | status
  | readField (f : RegField)
  | writeReg (reg : RegAddr) (bytes : List Byte)
  deriving DecidableEq, Repr, Inhabited

/-- The bus-level steps a driver operation is made of. -/
inductive DrvOp where
  /-- `MemRead(reg, 1)` -/
  | read (reg : RegAddr)
  /-- `MemWrite(reg, n, bytes)` -/
  | write (reg : RegAddr) (bytes : List Byte)
  /-- `readModifyWrite(reg, mask, shift, value)`, one retried unit -/
  | rmw (f : RegField) (value : Byte)
  /-- wait at least that long -/
  | settle (d : Nat)
  deriving DecidableEq, Repr, Inhabited

/-- A driver operation in progress: the bus-level steps still to do and the bytes obtained so far. -/
structure DrvJob where
  call : DrvCall
  todo : List DrvOp
  got : List Byte
  deriving DecidableEq, Repr, Inhabited

/-- What `status()` reports (42_sensor_accessors.md R132). That the distance-mask flag is one bit is DEDUCED from the word
(assumption 30). -/
structure StatusSnap where
  poweredDown : Bool
  mode : Option GainMode
  noiseFloor : Byte
  watchdog : Byte
  spike : Byte
  /-- `none` is "unknown" (R104) -/
  minStrikes : Option Nat
  distanceMask : Bool
  divider : Nat
  tuningSteps : Byte
  tuningPf : Nat
  deriving DecidableEq, Repr, Inhabited

/-- The outcome of a driver operation, handed to its caller. -/
inductive DrvResult where
  | done
  /-- `byte_after` of a readModifyWrite, or the value of a field read -/
  | byte (b : Byte)
  | snapshot (s : StatusSnap)
  | busFailure (attempts : Nat) (cause : Cause)
  | validationError
  | notInitialized
  /-- the typed condition of `begin()` (R127) -/
  | deviceNotResponding
  deriving DecidableEq, Repr, Inhabited

/-- What the block's ports put out, in order (30_encoding.md R82). -/
inductive Output where
  | rsp (status : Status) (data : RspData)
  | busRead (addr : BusAddr) (reg : RegAddr) (n : Nat)
  | busWrite (addr : BusAddr) (reg : RegAddr) (bytes : List Byte)
  | observer (sink : Arg12) (e : Event)
  /-- the triple of topic suffix, payload and retain flag; the prefix is the sink's (R82, R83) -/
  | publishEvent (topicSuffix : String) (payload : EventMsg) (retain : Bool)
  | publishState (topicSuffix : String) (payload : Agg) (retain : Bool)
  | warn
  | driver (r : DrvResult)
  deriving DecidableEq, Repr, Inhabited

/-- The environment's answer to one bus attempt (20_memory.md R42). `ok given`: the attempt succeeds; byte j of a read
is `given[j]` where the list has it, else what the sensor's register holds. `fail cause reached`: it fails, and `reached`
says whether it reached the sensor all the same (20_memory.md R49). -/
inductive BusAnswer where
  | ok (given : List Byte)
  | fail (cause : Cause) (reached : Bool)
  deriving DecidableEq, Repr, Inhabited

/-- A sink's answer (00_scope.md section 6). -/
inductive SinkAnswer where
  | ok | fail
  deriving DecidableEq, Repr, Inhabited

/-- What waits for the main context: a command word, or a call of the driver (20_memory.md R56). -/
inductive Request where
  | cmd (w : CmdWord)
  | drv (c : DrvCall)
  deriving DecidableEq, Repr, Inhabited

/-- One move of the machine or of its environment (00_scope.md R5). The order of moves is the interleaving
(20_memory.md R50). -/
inductive Move where
  /-- the main context runs its next micro-step -/
  | main
  /-- the interrupt line's strobe: 1 is an active edge -/
  | irq (strobe : BitVec 1)
  /-- the host puts a word on port `cmd` -/
  | cmd (w : CmdWord)
  /-- one assertion of port `stop` -/
  | stopPort
  /-- time passes -/
  | advance (d : Nat)
  /-- the surrounding software calls the driver -/
  | driver (c : DrvCall)
  /-- the surrounding software puts the driver into a state, which moves SENSOR_READY (10_state.md R27) -/
  | driverState (d : DriverState)
  /-- the sensor changes one of its own registers -/
  | sensor (reg : RegAddr) (b : Byte)
  deriving DecidableEq, Repr, Inhabited

end Sys2Proof.Machine
end

