-- ==== Sys2Proof/Config.lean ====
section
/-! DEFINITION. The parameter record of 00_scope.md R3 and R4, and the free values. A parameter the source prints has its
printed default; one it leaves OPEN is an opaque constant, about which nothing can be proved. The record an
instance is created with stands in State (`par`) and no step changes it (10_state.md R11). -/

namespace Sys2Proof.Config

open Sys2Proof.Machine

/-- Ticks in a millisecond: TICK is 1 ms by default (00_scope.md R4, D3). -/
def ticksPerMs : Nat := 1

/-- The TransactionPolicy and the bus address (00_scope.md R3): no value is printed (N24). -/
structure BusPolicy where
  /-- RETRIES -/
  retries : Nat
  /-- BACKOFF -/
  backoff : Nat
  /-- BUS_ADDR -/
  addr : BusAddr
  deriving DecidableEq, Repr, Inhabited

/-- Where the block's five sensor registers and two fields lie (00_scope.md R4): OPEN (D13). -/
structure SensorMap where
  /-- REG_INT -/
  regInt : RegAddr
  /-- REG_DIST -/
  regDist : RegAddr
  /-- REG_ENERGY_LSB -/
  regLsb : RegAddr
  /-- REG_ENERGY_MID -/
  regMid : RegAddr
  /-- REG_ENERGY_MSB -/
  regMsb : RegAddr
  /-- INT_SHIFT -/
  intShift : Nat
  /-- DIST_SHIFT -/
  distShift : Nat
  deriving DecidableEq, Repr, Inhabited

/-- TOPIC_PREFIX and the retain flags of the publish sink (00_scope.md R4): OPEN (D16). -/
structure PublishOpts where
  /-- TOPIC_PREFIX; the block's port carries the suffix alone, so no rule of the block reads it (30_encoding.md R82, R83) -/
  topicPrefix : String
  retainEvent : Bool
  retainState : Bool
  deriving DecidableEq, Repr, Inhabited

/-- Where the surrounding driver's registers and fields lie, and its default calibration: not in the source (N18, N19).
The gain, strike and divider fields have their bits in the source (R102, R103, R105), so only their registers are here; of
the others the source gives the width (30_encoding.md R79, 20_memory.md R51, 42_sensor_accessors.md R129), so only their
places are (assumption 30). -/
structure DriverMap where
  regGain : RegAddr
  regStatus : RegAddr
  regSrcMask : RegAddr
  /-- the register `begin()` reads (R127) -/
  regBegin : RegAddr
  noiseFloor : Pos3
  watchdog : Pos4
  spike : Pos4
  tuning : Pos4
  disturber : PosBit
  /-- the bit that `clearStatistics` pulses (R51, R131) -/
  clearStat : PosBit
  distanceMask : PosBit
  oscAntenna : PosBit
  oscSystem : PosBit
  oscInternal : PosBit
  calibration : List (RegAddr × Byte)
  deriving DecidableEq, Repr, Inhabited

/-- The OPEN parameters' values on the instance that reset creates. -/
opaque busPolicy : BusPolicy
opaque sensorMap : SensorMap
opaque publishOpts : PublishOpts
opaque driverMap : DriverMap

/-- The parameter record. -/
structure Params where
  /-- T_DEBOUNCE -/
  tDebounce : Nat := 3 * ticksPerMs
  /-- T_DWELL -/
  tDwell : Nat := 2 * ticksPerMs
  /-- DRAIN_CAP -/
  drainCap : Nat := 8
  /-- LOG_CAPACITY -/
  logCapacity : Nat := 256
  /-- T_THROTTLE, 10 minutes -/
  tThrottle : Nat := 600000 * ticksPerMs
  /-- T_KEEPALIVE, 15 minutes -/
  tKeepalive : Nat := 900000 * ticksPerMs
  /-- T_SETTLE_CFG, "2 to 3 ms": the lower of the two, a sleep being a lower bound (assumption 19) -/
  tSettleCfg : Nat := 2 * ticksPerMs
  /-- CONSUME_SPLIT -/
  consumeSplit : Bool := false
  bus : BusPolicy := busPolicy
  sensor : SensorMap := sensorMap
  publish : PublishOpts := publishOpts
  drv : DriverMap := driverMap
  deriving DecidableEq, Repr, Inhabited

/-- The constraints on the record (00_scope.md R4: sizes at least 1; 30_encoding.md R72: the binary port limits LOG_CAPACITY to
at most 4095; D13: the five registers distinct; a field lies inside its byte). -/
def Params.ok (p : Params) : Bool :=
  decide (1 ≤ p.logCapacity) && decide (p.logCapacity ≤ 4095) && decide (1 ≤ p.drainCap) &&
  decide ([p.sensor.regInt, p.sensor.regDist, p.sensor.regLsb, p.sensor.regMid, p.sensor.regMsb].Nodup) &&
  decide (p.sensor.intShift ≤ 4) && decide (p.sensor.distShift ≤ 2)

/-- AGG_INIT, the aggregate before any forward: OPEN (10_state.md R24, D16). -/
opaque aggInit : Agg

/-- agg_update, how a forwarded Event changes the aggregate: OPEN; its result depends on its two arguments alone
(10_state.md R24, D16). -/
opaque aggUpdate : Agg → Event → Agg

/-- TS_WIDTH, the width of a realisation's timestamps: OPEN (00_scope.md R4). It sizes EVTREC only. -/
opaque tsWidth : Nat

/-- What `status()` reports of a gain field that is neither preset: a parameter of the surrounding driver
(93_implementation_defined.md U11). -/
opaque otherGain : BitVec 5 → Option GainMode

/-- Free value: the next move when nothing is scheduled (00_scope.md R5: the environment's moves are draws). -/
opaque freeMove : Nat → Move

/-- Free value: the environment's answer to a bus attempt (20_memory.md R42; U1, U3, U5). -/
opaque freeBus : Nat → BusAnswer

/-- Free value: a sink's answer (U15). -/
opaque freeSink : Nat → SinkAnswer

end Sys2Proof.Config
end

