-- ==== Sys2Proof/Machine/State.lean ====
section
/-! DEFINITION. The state of the machine: every register of 10_state.md R30, the parameter record of the instance, the
sensor's register space, the surrounding driver, and the model's own fields (ports, schedule, the operation in
progress). -/

namespace Sys2Proof.Machine

/-- The sensor register space as (address, byte) cells in one canonical form: addresses strictly rising, below 256, and
no cell equal to what an unlisted address reads as. -/
abbrev Memory := List Host.Cell

/-- What an unlisted register reads as (DESIGN CHOICE, unsafe, assumption 5). -/
def unlistedByte : Byte := 0

/-- No step of IDEC ends in a fault: "no state of the block is stuck" (00_scope.md R6), the errors of section 7 end one
operation and the machine goes on (60_exceptions.md R203). The type has no constructor. -/
inductive Fault where
  deriving DecidableEq, Repr

/-- Why a step is refused. -/
inductive Refusal where
  /-- raised only by an arm of `exec` whose instruction has no meaning yet; safe. No arm raises it. -/
  | notModelled (mnemonic : String)
  deriving DecidableEq, Repr

/-- The machine. -/
structure State where
  /-- the parameter record of the instance; no step changes it (R11) -/
  par : Config.Params
  /-- the time source's present reading `now` (R12) -/
  now : Nat
  /-- PENDING (R13) -/
  pending : Bool
  /-- LAST_EDGE (R14) -/
  lastEdge : Nat
  /-- IRQ_EN (R15) -/
  irqEn : Bool
  /-- LOG, oldest first (R18) -/
  log : List Event
  /-- LOG_WR of the circular realisation (R19); LOG_COUNT and LOG_MEM are views -/
  logWr : Nat
  /-- LAST_ACC[Disturber] (R20) -/
  lastAccDisturber : Nat
  /-- LAST_ACC[Noise] (R20) -/
  lastAccNoise : Nat
  /-- LAST_SRC (R21); `none` is the spec's own value -/
  lastSrc : Option Kind
  /-- KEEPALIVE_TS (R23) -/
  keepaliveTs : Nat
  /-- AGG (R24) -/
  agg : Agg
  /-- OBSERVER (R25); `none` is the spec's own value -/
  observer : Option Arg12
  /-- RUNNING (R26) -/
  running : Bool
  /-- STOP_REQ (R26) -/
  stopReq : Bool
  /-- PHASE (R22) -/
  phase : Phase
  /-- DRAIN_N (R22) -/
  drainN : Nat
  /-- the local values of the operation in progress -/
  work : Work
  /-- the main context sleeps until this time (R42, R143: Sleep) -/
  wakeAt : Nat
  /-- failed attempts so far of the bus transaction in progress (R28 (d)) -/
  busTry : Nat
  /-- the surrounding driver's state, which is SENSOR_READY (R126) -/
  driver : DriverState
  /-- the driver operation in progress -/
  drvJob : Option DrvJob
  /-- the sensor's registers (20_memory.md R40) -/
  sensorRegs : Memory
  /-- commands and driver calls that wait for the main context, oldest first (20_memory.md R56) -/
  waiting : List Request
  /-- the moves to come, next first; beyond its end the moves are free values -/
  sched : List Move
  /-- the answers to the bus attempts to come; beyond its end the answers are free values -/
  busIn : List BusAnswer
  /-- the sinks' answers to come; beyond its end the answers are free values -/
  sinkIn : List SinkAnswer
  /-- how many free values have been drawn -/
  draws : Nat
  /-- what the ports have put out, oldest first -/
  out : List Output
  deriving DecidableEq, Repr

/-- The machine right after reset: a freshly created instance, before START (10_state.md R30, 70_reset_and_hazards.md
R230). LAST_EDGE and LAST_ACC are unspecified in the spec and 0 here (assumption 4); `now` is 0 (assumption 3). -/
def State.reset : State where
  par := {}
  now := 0
  pending := false
  lastEdge := 0
  irqEn := false
  log := []
  logWr := 0
  lastAccDisturber := 0
  lastAccNoise := 0
  lastSrc := none
  keepaliveTs := 0
  agg := Config.aggInit
  observer := none
  running := false
  stopReq := false
  phase := .idle
  drainN := 0
  work := {}
  wakeAt := 0
  busTry := 0
  driver := .uninitialized
  drvJob := none
  sensorRegs := []
  waiting := []
  sched := []
  busIn := []
  sinkIn := []
  draws := 0
  out := []

/-- SENSOR_READY: 1 exactly in the driver's Configured state (42_sensor_accessors.md R126). -/
def State.sensorReady (s : State) : Bool := decide (s.driver = .configured)

end Sys2Proof.Machine
end

