-- ==== Sys2Proof/Machine/Flags.lean ====
section
/-! DEFINITION. The conditions the block decides on. IDEC has no arithmetic flags (10_state.md R29); its conditions are the
five time comparisons of 60_exceptions.md R211, the throttle's, and readiness and business of the main context. -/

namespace Sys2Proof.Machine

/-- An edge is accepted: nothing pending, or strictly more than T_DEBOUNCE since LAST_EDGE (43_event_capture.md R140). -/
def State.edgeAccepted (s : State) : Bool :=
  s.irqEn && (!s.pending || decide (s.now - s.lastEdge > s.par.tDebounce))

/-- The dwell has elapsed: at least T_DWELL since LAST_EDGE (44_event_service.md R162). -/
def State.dwellElapsed (s : State) : Bool := decide (s.par.tDwell ≤ s.now - s.lastEdge)

/-- LAST_ACC[k]; Lightning has none and is never looked up (10_state.md R20, assumption 4). -/
def State.lastAcc (s : State) : Kind → Nat
  | .lightning => 0
  | .disturber => s.lastAccDisturber
  | .noise => s.lastAccNoise

/-- The Event is forwarded: Lightning, or a kind other than the last forwarded, or at least T_THROTTLE after the last
forward of its kind (44_event_service.md R169). -/
def State.throttlePass (s : State) (e : Event) : Bool :=
  decide (e.kind = .lightning) || decide (s.lastSrc ≠ some e.kind) ||
  decide (s.par.tThrottle ≤ e.ts - s.lastAcc e.kind)

/-- The keepalive is due: at least T_KEEPALIVE since KEEPALIVE_TS (44_event_service.md R172). -/
def State.keepaliveDue (s : State) : Bool := decide (s.par.tKeepalive ≤ s.now - s.keepaliveTs)

/-- The main context is taken: a command is in progress, or a driver operation is (20_memory.md R56: the main context is
single-threaded). -/
def State.busy (s : State) : Bool := decide (s.phase ≠ .idle) || s.drvJob.isSome

end Sys2Proof.Machine
end

