-- ==== Sys2Proof/Machine/Operands.lean ====
section
/-! DEFINITION. The operand forms and pure codecs: source code, distance and energy assembly, KIND4, EVTREC, STATUS, and the
surrounding driver's field codecs (30_encoding.md R75 to R80, 41_register_codecs.md, 42_sensor_accessors.md R121
and R122). -/

namespace Sys2Proof.Machine

/-- `classify(c)`: Lightning before Disturber before Noise, else no event; bit 1 never matters (R100). -/
def classify (c : Code4) : Option Kind :=
  if c.getLsbD 3 then some .lightning
  else if c.getLsbD 2 then some .disturber
  else if c.getLsbD 0 then some .noise
  else none

/-- `(b >> INT_SHIFT)[3:0]` (R80). -/
def sourceCode (shift : Nat) (b : Byte) : Code4 := (b >>> shift).extractLsb' 0 4

/-- `(b >> DIST_SHIFT)[5:0]` (R80, R121). -/
def maskDistance (shift : Nat) (b : Byte) : BitVec 6 := (b >>> shift).extractLsb' 0 6

/-- `assemble_energy(l, m, h)` (R122). -/
def assembleEnergy (l m h : Byte) : BitVec 21 :=
  ((h &&& 0x1F#8).setWidth 21 <<< 16) ||| (m.setWidth 21 <<< 8) ||| l.setWidth 21

/-- `KIND4` of a kind or of `none` (R75). -/
def kind4 : Option Kind → Code4
  | some .lightning => 0b1000
  | some .disturber => 0b0100
  | some .noise => 0b0001
  | none => 0b0000

/-- The value a `KIND4` code stands for, and no value for a reserved code (R75). -/
def kindOfKind4 (c : Code4) : Option (Option Kind) :=
  if c = 0b1000#4 then some (some .lightning)
  else if c = 0b0100#4 then some (some .disturber)
  else if c = 0b0001#4 then some (some .noise)
  else if c = 0b0000#4 then some none
  else none

/-- The 3-bit `STATUS` code (R77). -/
def statusCode : Status → BitVec 3
  | .ok => 0
  | .busError => 1
  | .validationError => 2
  | .notInitialized => 3
  | .refused => 4

/-- The low 37 bits of `EVTREC` (R76): every field but `ts`. -/
def evtrecLow (e : Event) : BitVec 37 :=
  e.energy.getD 0 ++ BitVec.ofBool e.energy.isSome ++ e.distanceKm.getD 0 ++ BitVec.ofBool e.distanceKm.isSome ++
    kind4 (some e.kind) ++ e.raw

/-- `EVTREC` as a number, `ts` unbounded (R76). -/
def evtrec (e : Event) : Nat := e.ts * 2 ^ 37 + (evtrecLow e).toNat

/-- `EVTREC` as a word of `37 + w` bits for a realisation whose timestamps have `w` bits (R76, R12). -/
def evtrecWord (w : Nat) (e : Event) : BitVec (37 + w) := BitVec.ofNat (37 + w) (evtrec e)

/-- `EVTREC` on the ports of an instance: `37 + TS_WIDTH` bits (R76). -/
def evtrecPort (e : Event) : BitVec (37 + Config.tsWidth) := evtrecWord Config.tsWidth e

/-- The Event a record of R76 stands for; none where its kind is reserved or `0000`. -/
def evtrecDecode (r : Nat) : Option Event :=
  let low := BitVec.ofNat 37 r
  match kindOfKind4 (low.extractLsb' 4 4) with
  | some (some k) =>
    some { ts := r / 2 ^ 37, kind := k,
           distanceKm := if low.getLsbD 8 then some (low.extractLsb' 9 6) else none,
           energy := if low.getLsbD 15 then some (low.extractLsb' 16 21) else none,
           raw := low.extractLsb' 0 4 }
  | _ => none

/-- An Event as the block makes it (R17): its kind is that of its source code, and distance and energy are present
for Lightning and only for it. -/
def Event.wellFormed (e : Event) : Bool :=
  decide (classify e.raw = some e.kind) &&
  (e.distanceKm.isSome == decide (e.kind = .lightning)) && (e.energy.isSome == decide (e.kind = .lightning))

/-- The "/event" payload of an Event (R83). -/
def Event.msg (e : Event) : EventMsg := { ts := e.ts, type := e.kind, distanceKm := e.distanceKm, energy := e.energy }

/-- The value of a field in a register byte: `(b & mask) >> shift` (20_memory.md R41, R45). -/
def RegField.get (f : RegField) (b : Byte) : Byte := (b &&& f.mask) >>> f.shift

/-- The byte a readModifyWrite stores: `(r & ~mask) | ((value << shift) & mask)` (20_memory.md R44). -/
def RegField.set (f : RegField) (r value : Byte) : Byte := (r &&& ~~~f.mask) ||| ((value <<< f.shift) &&& f.mask)

/-- AFE gain preset of a mode (R102). -/
def gainPreset : GainMode → Byte
  | .indoor => 0b10010
  | .outdoor => 0b01110

/-- Mode of the 5-bit gain field; for a value that is neither preset, the driver's open parameter (R102, U11). -/
def gainMode (c : BitVec 5) : Option GainMode :=
  if c = 0b10010#5 then some .indoor else if c = 0b01110#5 then some .outdoor else Config.otherGain c

/-- Minimum-strike encode: none is out of range (R103). -/
def strikesEncode (n : Nat) : Option Byte :=
  if n = 1 then some 0 else if n = 5 then some 1 else if n = 9 then some 2 else if n = 16 then some 3 else none

/-- Minimum-strike decode: none is "unknown", for an argument outside 0 to 3 (R104). -/
def strikesDecode (c : Nat) : Option Nat :=
  match c with
  | 0 => some 1
  | 1 => some 5
  | 2 => some 9
  | 3 => some 16
  | _ => none

/-- Divider encode: none is out of range (R105). -/
def dividerEncode (ratio : Nat) : Option Byte :=
  if ratio = 16 then some 0 else if ratio = 32 then some 1 else if ratio = 64 then some 2
  else if ratio = 128 then some 3 else none

/-- Divider decode, total on two bits (R105). -/
def dividerDecode (c : BitVec 2) : Nat := 16 * 2 ^ c.toNat

/-- Tuning capacitance encode: floor of pF over 8, clamped to 0 to 15 (R106). -/
def tuningSteps (pf : Int) : Byte := BitVec.ofNat 8 (min 15 (pf / 8).toNat)

/-- Tuning capacitance decode: steps times 8 (R107). -/
def tuningPf (steps : Byte) : Nat := steps.toNat * 8

/-- The RegisterField at an open place: as many ones as the field is wide, moved up to its place (20_memory.md R41). -/
def fieldAt {room : Nat} (pos : FieldPos room) : RegField :=
  { reg := pos.reg, mask := (0xFF#8 >>> room) <<< pos.shift.val, shift := pos.shift.val }

/-- The three fields whose mask and shift the source gives (R102, R103, R105), and the power-down bit (R102). -/
def gainField (p : Config.Params) : RegField := { reg := p.drv.regGain, mask := 0b00111110, shift := 1 }
def powerField (p : Config.Params) : RegField := { reg := p.drv.regGain, mask := 0b00000001, shift := 0 }
def strikesField (p : Config.Params) : RegField := { reg := p.drv.regStatus, mask := 0b00110000, shift := 4 }
def dividerField (p : Config.Params) : RegField := { reg := p.drv.regSrcMask, mask := 0b11000000, shift := 6 }

end Sys2Proof.Machine
end

