-- ==== Sys2Proof/Machine/Ops.lean ====
section
/-! DEFINITION. The named operations the meanings share: the register space, ports and environment answers, the bus
transaction layer, the RingLog, sleeping and waiting, and raising an error. -/

namespace Sys2Proof.Machine

/-! ### The sensor register space -/

/-- One register's byte. -/
def Memory.read : Memory → Nat → Byte
  | [], _ => unlistedByte
  | (b, v) :: m, a => if a = b then v else Memory.read m a

/-- Store one byte, keeping the canonical form: a byte that equals what an unlisted register reads as is not listed. -/
def Memory.write : Memory → Nat → Byte → Memory
  | [], a, v => if v = unlistedByte then [] else [(a, v)]
  | (b, w) :: m, a, v =>
    if a < b then (if v = unlistedByte then (b, w) :: m else (a, v) :: (b, w) :: m)
    else if a = b then (if v = unlistedByte then m else (a, v) :: m)
    else (b, w) :: Memory.write m a v

/-- Store bytes at consecutive registers; register addresses are 8 bits and wrap (assumption 12). -/
def Memory.writeBytes (m : Memory) (reg : RegAddr) : List Byte → Memory
  | [] => m
  | b :: bs => Memory.writeBytes (Memory.write m reg.toNat b) (reg + 1) bs

/-- Every cell's address is at least `lo`, addresses rise, lie below 256, and no cell holds the unlisted byte. -/
def Memory.wfFrom : Nat → Memory → Bool
  | _, [] => true
  | lo, (a, v) :: m => decide (lo ≤ a) && decide (a < 256) && decide (v ≠ unlistedByte) && Memory.wfFrom (a + 1) m

/-- The canonical form holds. -/
def Memory.wf (m : Memory) : Bool := Memory.wfFrom 0 m

/-! ### Ports and the environment's answers -/

/-- Drive an output port once. -/
def State.emit (s : State) (o : Output) : State := { s with out := s.out ++ [o] }

/-- Answer a command (30_encoding.md R72). -/
def State.respond (s : State) (st : Status) (d : RspData) : State := s.emit (.rsp st d)

/-- The environment's answer to the next bus attempt: the next one given, else a free value. -/
def State.drawBus (s : State) : BusAnswer × State :=
  match s.busIn with
  | a :: rest => (a, { s with busIn := rest })
  | [] => (Config.freeBus s.draws, { s with draws := s.draws + 1 })

/-- A sink's answer: the next one given, else a free value. -/
def State.drawSink (s : State) : SinkAnswer × State :=
  match s.sinkIn with
  | a :: rest => (a, { s with sinkIn := rest })
  | [] => (Config.freeSink s.draws, { s with draws := s.draws + 1 })

/-- `r <- emit observer(...)`: the answer is discarded, a failure with it (44_event_service.md R167). -/
def State.emitObserver (s : State) (id : Arg12) (e : Event) : State := (s.emit (.observer id e)).drawSink.2

/-- `r <- emit publish(...)`; a failure gives one warning and nothing else (44_event_service.md R173). -/
def State.emitPublish (s : State) (o : Output) : State :=
  match (s.emit o).drawSink with
  | (.ok, s') => s'
  | (.fail, s') => s'.emit .warn

/-- The "/event" message of an Event: topic suffix, payload, retain flag (44_event_service.md R170, 30_encoding.md R82). -/
def State.eventMessage (s : State) (e : Event) : Output :=
  .publishEvent "/event" e.msg s.par.publish.retainEvent

/-- The "/state" message of the present aggregate (44_event_service.md R170, R172, 30_encoding.md R82). -/
def State.stateMessage (s : State) : Output :=
  .publishState "/state" s.agg s.par.publish.retainState

/-! ### Sleeping, waiting, and the end of an operation -/

/-- `Sleep(d)`: the main context does nothing for at least `d` ticks (00_scope.md section 6). -/
def State.sleep (s : State) (d : Nat) : State := { s with wakeAt := s.now + d }

/-- The main context is scheduled again: its sleep is over, so `now` is at least the time it slept to. -/
def State.wake (s : State) : State := { s with now := max s.now s.wakeAt }

/-- The request waits for the main context (20_memory.md R56). -/
def State.wait (s : State) (r : Request) : State := { s with waiting := s.waiting ++ [r] }

/-- The operation in progress is over: `PHASE <- IDLE`. -/
def State.endOp (s : State) : State := { s with phase := .idle, work := {} }

/-- TAKING AN ERROR: `raise E(info)`. Every write made so far stands; `PHASE <- IDLE`, `RUNNING <- 0`; the response carries
the STATUS code and the data; nothing is kept for resumption (60_exceptions.md R203). There is no return from an
error: the next command starts clean (R204). -/
def State.raise (s : State) (st : Status) (d : RspData) : State :=
  ({ s with phase := .idle, work := {}, running := false, busTry := 0 }).respond st d

/-- The answer to a word the command map does not define: no register changes (R78, R196). -/
def State.refuse (s : State) : State := s.respond .refused .nothing

/-! ### The bus transaction layer -/

/-- What one bus attempt, as a step of a transaction, comes to. -/
inductive Tx (α : Type) where
  /-- the transaction is done -/
  | done (v : α)
  /-- the attempt failed; the main context sleeps BACKOFF and tries again -/
  | retry
  /-- the last attempt failed: BusError -/
  | error (attempts : Nat) (cause : Cause)

/-- Reading the interrupt source register clears the latched source code in the sensor (20_memory.md R49,
10_state.md R28 (a)). `n` bytes from `reg` were read. -/
def State.clearCause (s : State) (reg : RegAddr) (n : Nat) : State :=
  let a := s.par.sensor.regInt.toNat
  { s with sensorRegs :=
      if (s.par.sensor.regInt - reg).toNat < n then
        s.sensorRegs.write a (s.sensorRegs.read a &&& ~~~((0x0F : Byte) <<< s.par.sensor.intShift))
      else s.sensorRegs }

/-- The bytes of a read that succeeded, in ascending register order (20_memory.md R47). -/
def State.answerBytes (s : State) (reg : RegAddr) (n : Nat) (given : List Byte) : List Byte :=
  (List.range n).map fun j => given.getD j (s.sensorRegs.read (reg + BitVec.ofNat 8 j).toNat)

/-- `bus_read_once(BUS_ADDR, reg, n)` (20_memory.md R42). -/
def State.busReadOnce (s : State) (reg : RegAddr) (n : Nat) : Except Cause (List Byte) × State :=
  match (s.emit (.busRead s.par.bus.addr reg n)).drawBus with
  | (.ok given, s') => (.ok (s'.answerBytes reg n given), s'.clearCause reg n)
  | (.fail cause reached, s') => (.error cause, if reached then s'.clearCause reg n else s')

/-- `bus_write_once(BUS_ADDR, reg, bytes)` (20_memory.md R43, R44). -/
def State.busWriteOnce (s : State) (reg : RegAddr) (bytes : List Byte) : Except Cause Unit × State :=
  match (s.emit (.busWrite s.par.bus.addr reg bytes)).drawBus with
  | (.ok _, s') => (.ok (), { s' with sensorRegs := s'.sensorRegs.writeBytes reg bytes })
  | (.fail cause reached, s') =>
    (.error cause, if reached then { s' with sensorRegs := s'.sensorRegs.writeBytes reg bytes } else s')

/-- An attempt succeeded: the transaction is over. -/
def State.txDone (s : State) : State := { s with busTry := 0 }

/-- An attempt failed: sleep BACKOFF and try again, or, after RETRIES + 1 attempts, a BusError with no sleep
(20_memory.md R42, R46). -/
def State.txFail {α : Type} (s : State) (cause : Cause) : Tx α × State :=
  if s.busTry < s.par.bus.retries then
    (.retry, { s.sleep s.par.bus.backoff with busTry := s.busTry + 1 })
  else (.error (s.par.bus.retries + 1) cause, { s with busTry := 0 })

/-- One attempt of `MemRead(reg, n)` (20_memory.md R42). -/
def State.memRead (s : State) (reg : RegAddr) (n : Nat) : Tx (List Byte) × State :=
  match s.busReadOnce reg n with
  | (.ok bs, s') => (.done bs, s'.txDone)
  | (.error cause, s') => s'.txFail cause

/-- One attempt of `MemWrite(reg, n, v)` (20_memory.md R43), `n` being the length of `bytes`. R43 states no bound for `n`, where R42
has `n >= 1` for the read; that `n = 0` is an attempt like any other is the model's choice (DESIGN CHOICE, assumption 33). -/
def State.memWrite (s : State) (reg : RegAddr) (bytes : List Byte) : Tx Unit × State :=
  match s.busWriteOnce reg bytes with
  | (.ok _, s') => (.done (), s'.txDone)
  | (.error cause, s') => s'.txFail cause

/-- One attempt of `readModifyWrite`, read and write together as one retried unit; the result is byte_after
(20_memory.md R44). -/
def State.readModifyWrite (s : State) (f : RegField) (value : Byte) : Tx Byte × State :=
  match s.busReadOnce f.reg 1 with
  | (.error cause, s') => s'.txFail cause
  | (.ok bs, s') =>
    let after := f.set (bs.headD 0) value
    match s'.busWriteOnce f.reg [after] with
    | (.ok _, s'') => (.done after, s''.txDone)
    | (.error cause, s'') => s''.txFail cause

/-! ### The RingLog -/

/-- LOG_COUNT, a view of LOG (10_state.md R19). -/
def State.logCount (s : State) : Nat := s.log.length

/-- LOG_MEM, the written slots of the circular buffer, slot 0 first, a view of LOG and LOG_WR (10_state.md R19). While
the buffer has never been full the slots are LOG itself; once full, slot LOG_WR holds the oldest Event. -/
def State.logMem (s : State) : List Event :=
  if s.log.length < s.par.logCapacity then s.log
  else s.log.drop (s.par.logCapacity - s.logWr) ++ s.log.take (s.par.logCapacity - s.logWr)

/-- LOG after an append: the oldest Event is dropped once at capacity (44_event_service.md R166). -/
def logAppend (cap : Nat) (log : List Event) (e : Event) : List Event :=
  (if log.length = cap then log.drop 1 else log) ++ [e]

/-- `APPEND(e)` (44_event_service.md R166). -/
def State.append (s : State) (e : Event) : State :=
  { s with log := logAppend s.par.logCapacity s.log e, logWr := (s.logWr + 1) % s.par.logCapacity }

/-- `TAIL n`: the last n Events, or all, oldest first (44_event_service.md R175). -/
def tailOf (n : Nat) (log : List Event) : List Event := log.drop (log.length - n)

/-! ### Handing on a classified Event -/

/-- What READ_EVENT returns, to the host that issued it or to the drain (43_event_capture.md R143, 44_event_service.md
R161, R163). -/
def State.returnEvent (s : State) (ev : Option Event) : State :=
  if s.work.byHost then s.endOp.respond .ok (.event ev)
  else match ev with
    | some e => { s with phase := .sAppend, work := { ev := some e } }
    | none => { s with phase := .sConsume, work := {} }

/-- The Event a code without distance and energy gives, at the time of classification (43_event_capture.md R143). -/
def State.plainEvent (s : State) (k : Kind) (c : Code4) : Event :=
  { ts := s.now, kind := k, distanceKm := none, energy := none, raw := c }

end Sys2Proof.Machine
end

