-- ==== Sys2Proof/Machine/Command.lean ====
section
/-! DEFINITION. The host's commands (44_event_service.md, 43_event_capture.md R143, 30_encoding.md R73, R78). A meaning is
the micro-step in which the main context accepts the word; an operation of several micro-steps goes on in
Machine/Sequencer.lean. While the main context is taken, a command other than STOP waits (20_memory.md R56), a word of the
reserved command space among them: it is a host command (00_scope.md R2), and R177 names STOP as the one exception. -/

namespace Sys2Proof.Machine

/-- A word of the reserved command space: it waits while the main context is taken (20_memory.md R56), and is answered
REFUSED when the main context takes it; no register changes (R78). -/
def State.refuseCmd (s : State) (i : Instr) : State := if s.busy then s.wait (.cmd (encodeCmd i)) else s.refuse

/-- START (R160): the callback is registered; nothing else changes. -/
def execStart (s : State) : Host.Outcome State Fault Refusal :=
  .next (if s.busy then s.wait (.cmd (encodeCmd .start)) else ({ s with irqEn := true }).respond .ok .nothing)

/-- STOP (R177): latch STOP_REQ, at any time, whatever the main context does. -/
def execStop (s : State) : Host.Outcome State Fault Refusal :=
  .next (({ s with stopReq := true }).respond .ok .nothing)

/-- SERVICE (R161): the sequencer goes to S_ENTRY. -/
def execService (s : State) : Host.Outcome State Fault Refusal :=
  .next (if s.busy then s.wait (.cmd (encodeCmd .service)) else { s with phase := .sEntry, work := {} })

/-- RUN (R176): a stale STOP_REQ is cleared, RUNNING is set, and the first SERVICE begins. -/
def execRun (s : State) : Host.Outcome State Fault Refusal :=
  .next (if s.busy then s.wait (.cmd (encodeCmd .run))
    else { s with stopReq := false, running := true, phase := .sEntry, work := {} })

/-- READ_EVENT d (R143): NotInitializedError before any sleep or read, else the settle sleep begins; `d` is used as it
stands, in ticks (R74). -/
def execReadEvent (d : Arg12) (s : State) : Host.Outcome State Fault Refusal :=
  .next (if s.busy then s.wait (.cmd (encodeCmd (.readEvent d)))
    else if s.sensorReady then ({ s with phase := .pSleep, work := { byHost := true } }).sleep d.toNat
    else s.raise .notInitialized .nothing)

/-- SET_OBSERVER id (R174): the last registration wins; 0 un-registers. -/
def execSetObserver (id : Arg12) (s : State) : Host.Outcome State Fault Refusal :=
  .next (if s.busy then s.wait (.cmd (encodeCmd (.setObserver id)))
    else ({ s with observer := if id = 0 then none else some id }).respond .ok .nothing)

/-- TAIL n (R175): the last n Events or all, oldest first; nothing is written. -/
def execTail (n : Arg12) (s : State) : Host.Outcome State Fault Refusal :=
  .next (if s.busy then s.wait (.cmd (encodeCmd (.tail n))) else s.respond .ok (.events (tailOf n.toNat s.log)))

/-- Reserved op 0x0 (R78 (a)): REFUSED, no register changes. -/
def execReservedOp0 (arg : Arg12) (s : State) : Host.Outcome State Fault Refusal := .next (s.refuseCmd (.reservedOp0 arg))

/-- Reserved ops 0x8 to 0xF (R78 (a)): REFUSED. -/
def execReservedOp8F (arg : BitVec 15) (s : State) : Host.Outcome State Fault Refusal :=
  .next (s.refuseCmd (.reservedOp8F arg))

/-- START with a nonzero arg (R78 (b)): REFUSED; IRQ_EN keeps its value. -/
def execStartNonzeroArg (arg : Arg12) (s : State) : Host.Outcome State Fault Refusal :=
  .next (s.refuseCmd (.startNonzeroArg arg))

/-- STOP with a nonzero arg (R78 (b)): REFUSED; STOP_REQ is not latched. It is no STOP, so it waits as any command does. -/
def execStopNonzeroArg (arg : Arg12) (s : State) : Host.Outcome State Fault Refusal :=
  .next (s.refuseCmd (.stopNonzeroArg arg))

/-- SERVICE with a nonzero arg (R78 (b)): REFUSED; nothing is drained. -/
def execServiceNonzeroArg (arg : Arg12) (s : State) : Host.Outcome State Fault Refusal :=
  .next (s.refuseCmd (.serviceNonzeroArg arg))

/-- RUN with a nonzero arg (R78 (b)): REFUSED; RUNNING and STOP_REQ keep their values. -/
def execRunNonzeroArg (arg : Arg12) (s : State) : Host.Outcome State Fault Refusal :=
  .next (s.refuseCmd (.runNonzeroArg arg))

end Sys2Proof.Machine
end

