-- ==== Sys2Proof/Machine/Driver.lean ====
section
/-! DEFINITION. The surrounding sensor driver (42_sensor_accessors.md R126 to R134, 20_memory.md R43 to R45,
41_register_codecs.md R102 to R107): its operations as lists of bus-level steps, run one attempt at a time in the
main context, and the meanings of the register-byte rows. -/

namespace Sys2Proof.Machine

/-- Set the interrupt-output source: the other bits are cleared first (R129, R246). That each of the three bits is a field of its
own, so that two readModifyWrites clear the other two, in the order antenna, system, internal, is the model's choice
(DESIGN CHOICE, assumption 32). -/
def oscOps (p : Config.Params) : OscSource → List DrvOp
  | .none => [.rmw (fieldAt p.drv.oscAntenna) 0, .rmw (fieldAt p.drv.oscSystem) 0, .rmw (fieldAt p.drv.oscInternal) 0]
  | .antenna => [.rmw (fieldAt p.drv.oscSystem) 0, .rmw (fieldAt p.drv.oscInternal) 0, .rmw (fieldAt p.drv.oscAntenna) 1]
  | .system => [.rmw (fieldAt p.drv.oscAntenna) 0, .rmw (fieldAt p.drv.oscInternal) 0, .rmw (fieldAt p.drv.oscSystem) 1]
  | .internal => [.rmw (fieldAt p.drv.oscAntenna) 0, .rmw (fieldAt p.drv.oscSystem) 0, .rmw (fieldAt p.drv.oscInternal) 1]

/-- The disturber mask bit is 1 when reporting is off (R134; DESIGN CHOICE, assumption 19). -/
def disturberOps (p : Config.Params) (enabled : Bool) : List DrvOp :=
  [.rmw (fieldAt p.drv.disturber) (if enabled then 0 else 1)]

/-- A field write that is range-checked first: none is ValidationError, before any bus write (R128). -/
def checked (ok : Bool) (ops : List DrvOp) : Option (List DrvOp) := if ok then some ops else none

/-- The writes that apply a SensorConfig; none where a field is out of range (R128, R129). -/
def configOps (p : Config.Params) (c : SensorConfig) : Option (List DrvOp) :=
  match strikesEncode c.minStrikes with
  | none => none
  | some k =>
    checked (decide (c.noiseFloor ≤ 7) && decide (c.watchdog ≤ 15) && decide (c.spike ≤ 15))
      ([.rmw (gainField p) (gainPreset c.mode), .rmw (fieldAt p.drv.noiseFloor) (BitVec.ofNat 8 c.noiseFloor),
        .rmw (fieldAt p.drv.watchdog) (BitVec.ofNat 8 c.watchdog), .rmw (fieldAt p.drv.spike) (BitVec.ofNat 8 c.spike),
        .rmw (strikesField p) k, .rmw (fieldAt p.drv.tuning) (tuningSteps c.tuningPf)] ++ disturberOps p c.disturberEnabled)

/-- The bus-level steps of a driver operation, in order; none is ValidationError. R132 says of `status()` that it issues reads
only. That these are eight one-byte reads in the order R132 lists the fields (the first for power state and mode), and
that a register which two later fields share is read again, is the model's choice (DESIGN CHOICE, assumption 28). R129 says that the
default calibration registers are applied; that each is one plain write of the whole byte, in the order of the list, is the
model's choice (DESIGN CHOICE, assumption 31). R43 bounds the number of bytes of a MemWrite nowhere; that a write of no bytes is
taken, as one bus write of no bytes, is the model's choice (DESIGN CHOICE, assumption 33). -/
def drvPlan (p : Config.Params) : DrvCall → Option (List DrvOp)
  | .begin => some [.read p.drv.regBegin]
  | .configure c src =>
    match configOps p c with
    | none => none
    | some ops =>
      some (p.drv.calibration.map (fun cal => .write cal.1 [cal.2]) ++ [.settle p.tSettleCfg] ++ oscOps p src ++ ops)
  | .field f b =>
    match f with
    | .gainReg =>
      match decodeGain b with
      | .ok _ => some [.rmw (gainField p) ((gainField p).get b)]
      | .error _ => none
    | .statusReg => some [.rmw (strikesField p) ((strikesField p).get b)]
    | .srcMaskReg => some [.rmw (dividerField p) ((dividerField p).get b)]
    | .edge1 | .cmd16 | .src4 | .regByte | .regByte3 => none
  | .setMode m => some [.rmw (gainField p) (gainPreset m)]
  | .setMinStrikes n => (strikesEncode n).map fun k => [.rmw (strikesField p) k]
  | .setDivider ratio => (dividerEncode ratio).map fun k => [.rmw (dividerField p) k]
  | .setNoiseFloor v => checked (decide (v ≤ 7)) [.rmw (fieldAt p.drv.noiseFloor) (BitVec.ofNat 8 v)]
  | .setWatchdog v => checked (decide (v ≤ 15)) [.rmw (fieldAt p.drv.watchdog) (BitVec.ofNat 8 v)]
  | .setSpike v => checked (decide (v ≤ 15)) [.rmw (fieldAt p.drv.spike) (BitVec.ofNat 8 v)]
  | .setTuningCaps pf => some [.rmw (fieldAt p.drv.tuning) (tuningSteps pf)]
  | .setDisturber enabled => some (disturberOps p enabled)
  | .setOscSource src => some (oscOps p src)
  | .power down => some [.rmw (powerField p) (if down then 1 else 0)]
  | .clearStatistics =>
    let f := fieldAt p.drv.clearStat
    some [.rmw f 1, .rmw f 0, .rmw f 1]
  | .status =>
    some [.read p.drv.regGain, .read p.drv.noiseFloor.reg, .read p.drv.watchdog.reg, .read p.drv.spike.reg,
      .read p.drv.regStatus, .read p.drv.distanceMask.reg, .read p.drv.regSrcMask, .read p.drv.tuning.reg]
  | .readField f => some [.read f.reg]
  | .writeReg reg bytes => some [.write reg bytes]

/-- The snapshot of `status()` from the eight bytes read (R132). -/
def statusSnap (p : Config.Params) (got : List Byte) : StatusSnap :=
  let gain := got.getD 0 0
  let steps := (fieldAt p.drv.tuning).get (got.getD 7 0)
  { poweredDown := (powerField p).get gain != 0
    mode := gainMode (gain.extractLsb' 1 5)
    noiseFloor := (fieldAt p.drv.noiseFloor).get (got.getD 1 0)
    watchdog := (fieldAt p.drv.watchdog).get (got.getD 2 0)
    spike := (fieldAt p.drv.spike).get (got.getD 3 0)
    minStrikes := strikesDecode ((strikesField p).get (got.getD 4 0)).toNat
    distanceMask := (fieldAt p.drv.distanceMask).get (got.getD 5 0) != 0
    divider := dividerDecode ((got.getD 6 0).extractLsb' 6 2)
    tuningSteps := steps
    tuningPf := tuningPf steps }

/-- What the driver's caller gets when every step is done. -/
def drvResult (p : Config.Params) (j : DrvJob) : DrvResult :=
  match j.call with
  | .begin | .configure _ _ | .setOscSource _ | .clearStatistics | .writeReg _ _ => .done
  | .status => .snapshot (statusSnap p j.got)
  | .readField f => .byte (f.get (j.got.headD 0))
  | .field _ _ | .setMode _ | .setMinStrikes _ | .setDivider _ | .setNoiseFloor _ | .setWatchdog _ | .setSpike _
  | .setTuningCaps _ | .setDisturber _ | .power _ => .byte (j.got.getLastD 0)

/-- The driver's state after an operation succeeded, `d` being its state at that moment: Uninitialized to Initialized by `begin()`,
Initialized to Configured by the configuration sequence (R126). R126 does not say what an operation leads to from another
state, which a `driverState` move may bring about while the operation is in progress: that a completed configuration
sequence ends in Configured from any state, Uninitialized among them, and a completed `begin()` leaves Initialized and
Configured as they are, is the model's choice (DESIGN CHOICE, assumptions 18 and 34). -/
def drvAfter (d : DriverState) : DrvCall → DriverState
  | .begin => if d = .uninitialized then .initialized else d
  | .configure _ _ => .configured
  | .field _ _ | .setMode _ | .setMinStrikes _ | .setDivider _ | .setNoiseFloor _ | .setWatchdog _ | .setSpike _
  | .setTuningCaps _ | .setDisturber _ | .setOscSource _ | .power _ | .clearStatistics | .status | .readField _
  | .writeReg _ _ => d

/-- Every bus-level step is done: the result goes to the caller. -/
def State.drvFinish (s : State) (j : DrvJob) : State :=
  ({ s with driver := drvAfter s.driver j.call, drvJob := none }).emit (.driver (drvResult s.par j))

/-- One bus-level step is done, with the bytes it obtained. -/
def State.drvAdvance (s : State) (j : DrvJob) (rest : List DrvOp) (got : List Byte) : State :=
  let j' : DrvJob := { j with todo := rest, got := j.got ++ got }
  match rest with
  | [] => s.drvFinish j'
  | _ :: _ => { s with drvJob := some j' }

/-- A BusError ends the operation and goes to its caller; of `begin()` it is the typed condition (R127, R191). -/
def State.drvError (s : State) (j : DrvJob) (attempts : Nat) (cause : Cause) : State :=
  ({ s with drvJob := none }).emit (.driver (match j.call with
    | .begin => .deviceNotResponding
    | .configure _ _ | .field _ _ | .setMode _ | .setMinStrikes _ | .setDivider _ | .setNoiseFloor _ | .setWatchdog _
    | .setSpike _ | .setTuningCaps _ | .setDisturber _ | .setOscSource _ | .power _ | .clearStatistics | .status
    | .readField _ | .writeReg _ _ => .busFailure attempts cause))

/-- One step of the driver operation in progress: one attempt of its next bus transaction, or a settle sleep. -/
def State.drvStep (s : State) (j : DrvJob) : State :=
  match j.todo with
  | [] => s.drvFinish j
  | .settle d :: rest => (s.sleep d).drvAdvance j rest []
  | .read reg :: rest =>
    match s.memRead reg 1 with
    | (.done bs, s') => s'.drvAdvance j rest bs
    | (.retry, s') => { s' with drvJob := some j }
    | (.error n c, s') => s'.drvError j n c
  | .write reg bytes :: rest =>
    match s.memWrite reg bytes with
    | (.done _, s') => s'.drvAdvance j rest []
    | (.retry, s') => { s' with drvJob := some j }
    | (.error n c, s') => s'.drvError j n c
  | .rmw f v :: rest =>
    match s.readModifyWrite f v with
    | (.done b, s') => s'.drvAdvance j rest [b]
    | (.retry, s') => { s' with drvJob := some j }
    | (.error n c, s') => s'.drvError j n c

/-- The driver operation begins, and makes its first step: ValidationError before any bus traffic where an operand is out
of range (R128), and the configuration sequence needs an initialized driver (R126). -/
def State.drvStart (s : State) (c : DrvCall) : State :=
  match c, s.driver with
  | .configure _ _, .uninitialized => s.emit (.driver .notInitialized)
  | _, _ =>
    match drvPlan s.par c with
    | none => s.emit (.driver .validationError)
    | some ops => s.drvStep { call := c, todo := ops, got := [] }

/-- A driver call waits while the main context is taken (20_memory.md R56). -/
def State.drvCall (s : State) (c : DrvCall) : State := if s.busy then s.wait (.drv c) else s.drvStart c

/-- GAIN_INDOOR (R102): preset 10010 into bits [5:1] of the gain register by readModifyWrite; the register's other bits,
the power-down flag among them, stay as they were. -/
def execGainIndoor (x : BitVec 2) (p : BitVec 1) (s : State) : Host.Outcome State Fault Refusal :=
  .next (s.drvCall (.field .gainReg (encodeField (.gainIndoor x p))))

/-- GAIN_OUTDOOR (R102): preset 01110. -/
def execGainOutdoor (x : BitVec 2) (p : BitVec 1) (s : State) : Host.Outcome State Fault Refusal :=
  .next (s.drvCall (.field .gainReg (encodeField (.gainOutdoor x p))))

/-- MIN_STRIKES_1 (R103): code 00 into bits [5:4] of the status register. -/
def execMinStrikes1 (hi : BitVec 2) (lo : BitVec 4) (s : State) : Host.Outcome State Fault Refusal :=
  .next (s.drvCall (.field .statusReg (encodeField (.minStrikes1 hi lo))))

/-- MIN_STRIKES_5 (R103): code 01. -/
def execMinStrikes5 (hi : BitVec 2) (lo : BitVec 4) (s : State) : Host.Outcome State Fault Refusal :=
  .next (s.drvCall (.field .statusReg (encodeField (.minStrikes5 hi lo))))

/-- MIN_STRIKES_9 (R103): code 10. -/
def execMinStrikes9 (hi : BitVec 2) (lo : BitVec 4) (s : State) : Host.Outcome State Fault Refusal :=
  .next (s.drvCall (.field .statusReg (encodeField (.minStrikes9 hi lo))))

/-- MIN_STRIKES_16 (R103): code 11. -/
def execMinStrikes16 (hi : BitVec 2) (lo : BitVec 4) (s : State) : Host.Outcome State Fault Refusal :=
  .next (s.drvCall (.field .statusReg (encodeField (.minStrikes16 hi lo))))

/-- DIVIDER_16 (R105): code 00 into bits [7:6] of the source-mask register. -/
def execDivider16 (lo : BitVec 6) (s : State) : Host.Outcome State Fault Refusal :=
  .next (s.drvCall (.field .srcMaskReg (encodeField (.divider16 lo))))

/-- DIVIDER_32 (R105): code 01. -/
def execDivider32 (lo : BitVec 6) (s : State) : Host.Outcome State Fault Refusal :=
  .next (s.drvCall (.field .srcMaskReg (encodeField (.divider32 lo))))

/-- DIVIDER_64 (R105): code 10. -/
def execDivider64 (lo : BitVec 6) (s : State) : Host.Outcome State Fault Refusal :=
  .next (s.drvCall (.field .srcMaskReg (encodeField (.divider64 lo))))

/-- DIVIDER_128 (R105): code 11. -/
def execDivider128 (lo : BitVec 6) (s : State) : Host.Outcome State Fault Refusal :=
  .next (s.drvCall (.field .srcMaskReg (encodeField (.divider128 lo))))

end Sys2Proof.Machine
end

