-- ==== Sys2Proof/Machine/Edge.lean ====
section
/-! DEFINITION. The edge context: EDGE, the debouncer (43_event_capture.md R140 to R142). -/

namespace Sys2Proof.Machine

/-- EDGE (R140): one indivisible step on PENDING and LAST_EDGE, which reads `now` and IRQ_EN and touches nothing else
(R142, 10_state.md R10). It runs whatever the main context does. -/
def execEdge (s : State) : Host.Outcome State Fault Refusal :=
  .next (if s.edgeAccepted then { s with pending := true, lastEdge := s.now } else s)

end Sys2Proof.Machine
end

