-- ==== Sys2Proof/Machine/Source.lean ====
section
/-! DEFINITION. The words the sensor answers with: the source code rows, which are the S_CLASSIFY micro-step, and the distance
and energy rows, which end S_READ_DIST and S_READ_ENERGY (43_event_capture.md R143, 41_register_codecs.md R100,
42_sensor_accessors.md R121, R122). The decode functions are pure: with no read in progress that takes the
result, nothing changes (R100, assumption 16). -/

namespace Sys2Proof.Machine

/-- SRC_LIGHTNING (R100, R143): kind Lightning; `t <- now`; distance and energy are read next. -/
def execSrcLightning (x : BitVec 3) (s : State) : Host.Outcome State Fault Refusal :=
  .next (if s.phase = .sClassify then
    { s with phase := .sReadDist, work := { s.work with code := 1#1 ++ x, ts := s.now } } else s)

/-- SRC_DISTURBER (R100, R143): an Event of kind Disturber at `now`, without distance and energy. -/
def execSrcDisturber (x : BitVec 2) (s : State) : Host.Outcome State Fault Refusal :=
  .next (if s.phase = .sClassify then s.returnEvent (some (s.plainEvent .disturber (0b01#2 ++ x))) else s)

/-- SRC_NOISE (R100, R143): an Event of kind Noise at `now`, without distance and energy. -/
def execSrcNoise (x : BitVec 1) (s : State) : Host.Outcome State Fault Refusal :=
  .next (if s.phase = .sClassify then s.returnEvent (some (s.plainEvent .noise (0b00#2 ++ x ++ 1#1))) else s)

/-- SRC_NONE (R100, R143): no event, no Event value; not an error (R144). -/
def execSrcNone (_x : BitVec 1) (s : State) : Host.Outcome State Fault Refusal :=
  .next (if s.phase = .sClassify then s.returnEvent none else s)

/-- DIST6 (R121): the distance read's byte arrives; its two other bits are ignored. -/
def execDist6 (b : Byte) (s : State) : Host.Outcome State Fault Refusal :=
  .next (if s.phase = .sReadDist then
    { s with phase := .sReadEnergy,
             work := { s.work with dist := maskDistance s.par.sensor.distShift b, energyBytes := [] } }
    else s)

/-- The Lightning Event of the reads made so far (R143). -/
def State.lightningEvent (s : State) (en : BitVec 21) : Event :=
  { ts := s.work.ts, kind := .lightning, distanceKm := some s.work.dist, energy := some en, raw := s.work.code }

/-- ENERGY21 (R122): the three bytes are assembled and the Lightning Event is returned (R143). -/
def execEnergy21 (msb mid lsb : Byte) (s : State) : Host.Outcome State Fault Refusal :=
  .next (if s.phase = .sReadEnergy then s.returnEvent (some (s.lightningEvent (assembleEnergy lsb mid msb))) else s)

end Sys2Proof.Machine
end

