-- ==== Sys2Proof/Machine/Dispatch.lean ====
section
/-! DEFINITION. One arm per constructor of Instr, each one direct call of its meaning. -/

namespace Sys2Proof.Machine

def exec (i : Instr) (s : State) : Host.Outcome State Fault Refusal :=
  match i with
  | .edge => Sys2Proof.Machine.execEdge s
  | .start => Sys2Proof.Machine.execStart s
  | .stop => Sys2Proof.Machine.execStop s
  | .service => Sys2Proof.Machine.execService s
  | .run => Sys2Proof.Machine.execRun s
  | .readEvent d => Sys2Proof.Machine.execReadEvent d s
  | .setObserver id => Sys2Proof.Machine.execSetObserver id s
  | .tail n => Sys2Proof.Machine.execTail n s
  | .reservedOp0 arg => Sys2Proof.Machine.execReservedOp0 arg s
  | .reservedOp8F arg => Sys2Proof.Machine.execReservedOp8F arg s
  | .startNonzeroArg arg => Sys2Proof.Machine.execStartNonzeroArg arg s
  | .stopNonzeroArg arg => Sys2Proof.Machine.execStopNonzeroArg arg s
  | .serviceNonzeroArg arg => Sys2Proof.Machine.execServiceNonzeroArg arg s
  | .runNonzeroArg arg => Sys2Proof.Machine.execRunNonzeroArg arg s
  | .srcLightning x => Sys2Proof.Machine.execSrcLightning x s
  | .srcDisturber x => Sys2Proof.Machine.execSrcDisturber x s
  | .srcNoise x => Sys2Proof.Machine.execSrcNoise x s
  | .srcNone x => Sys2Proof.Machine.execSrcNone x s
  | .dist6 b => Sys2Proof.Machine.execDist6 b s
  | .energy21 msb mid lsb => Sys2Proof.Machine.execEnergy21 msb mid lsb s
  | .gainIndoor x p => Sys2Proof.Machine.execGainIndoor x p s
  | .gainOutdoor x p => Sys2Proof.Machine.execGainOutdoor x p s
  | .minStrikes1 hi lo => Sys2Proof.Machine.execMinStrikes1 hi lo s
  | .minStrikes5 hi lo => Sys2Proof.Machine.execMinStrikes5 hi lo s
  | .minStrikes9 hi lo => Sys2Proof.Machine.execMinStrikes9 hi lo s
  | .minStrikes16 hi lo => Sys2Proof.Machine.execMinStrikes16 hi lo s
  | .divider16 lo => Sys2Proof.Machine.execDivider16 lo s
  | .divider32 lo => Sys2Proof.Machine.execDivider32 lo s
  | .divider64 lo => Sys2Proof.Machine.execDivider64 lo s
  | .divider128 lo => Sys2Proof.Machine.execDivider128 lo s

end Sys2Proof.Machine
end

