-- ==== Sys2Proof/Machine/Service.lean ====
section
/-! DEFINITION. The service loop's operations: CONSUME, OBSERVE, THROTTLE, FORWARD, KEEPALIVE, and the micro-steps of SERVICE
and RUN that run no decoded word (44_event_service.md R161 to R176). -/

namespace Sys2Proof.Machine

/-- `CONSUME` as one indivisible step: true is `go`, with PENDING cleared; false is `stop` (R162). -/
def State.consume (s : State) : Bool × State :=
  if s.pending && s.dwellElapsed then (true, { s with pending := false }) else (false, s)

/-- `OBSERVE(e)`: the Event goes to the observer, if one is registered; a failure is discarded (R167). -/
def State.observe (s : State) (e : Event) : State :=
  match s.observer with
  | some id => s.emitObserver id e
  | none => s

/-- The registers a forward writes (R169): AGG, LAST_SRC, LAST_ACC of a kind other than Lightning, KEEPALIVE_TS. -/
def State.markForwarded (s : State) (e : Event) : State :=
  { s with
    agg := Config.aggUpdate s.agg e
    lastSrc := some e.kind
    lastAccDisturber := if e.kind = .disturber then e.ts else s.lastAccDisturber
    lastAccNoise := if e.kind = .noise then e.ts else s.lastAccNoise
    keepaliveTs := s.now }

/-- `FORWARD(e)`: "/event", then "/state" (R170). -/
def State.forward (s : State) (e : Event) : State :=
  let s' := s.emitPublish (s.eventMessage e)
  s'.emitPublish s'.stateMessage

/-- `THROTTLE(e)`: forward, or suppress with no effect at all (R169). -/
def State.throttle (s : State) (e : Event) : State :=
  if s.throttlePass e then (s.markForwarded e).forward e else s

/-- `KEEPALIVE`: re-forward the aggregate when the interval has elapsed (R172). -/
def State.keepalive (s : State) : State :=
  if s.keepaliveDue then { s.emitPublish s.stateMessage with keepaliveTs := s.now } else s

/-- The drain calls READ_EVENT 0: it starts at the P_SLEEP line and does not sleep (R163, 43_event_capture.md R143). -/
def State.startRead (s : State) : State := { s with phase := .pSleep, work := {} }

/-- The drain's loop ends (R164). -/
def State.exitDrain (s : State) : State := { s with phase := .sKeepalive, work := {} }

/-- S_ENTRY: the one readiness check of a SERVICE, before anything is touched (R161, R178). -/
def State.stepEntry (s : State) : State :=
  if s.sensorReady then { s with drainN := 0, phase := .sConsume, work := {} } else s.raise .notInitialized .nothing

/-- A capture was consumed: it counts toward DRAIN_CAP, and the read follows (R161, R163). -/
def State.consumed (s : State) : State := ({ s with drainN := s.drainN + 1 }).startRead

/-- S_CONSUME with the indivisible consume (R161, R162). -/
def State.stepConsumeWhole (s : State) : State :=
  if s.drainN = s.par.drainCap then s.exitDrain
  else match s.consume with
    | (true, s') => s'.consumed
    | (false, s') => s'.exitDrain

/-- S_CONSUME with `CONSUME_SPLIT = true`: read PENDING; read LAST_EDGE and compare; clear (20_memory.md R54,
70_reset_and_hazards.md R249). -/
def State.stepConsumeSplit (s : State) : State :=
  match s.work.split with
  | .readPending =>
    if s.drainN = s.par.drainCap then s.exitDrain
    else if s.pending then { s with work := { s.work with split := .compare } }
    else s.exitDrain
  | .compare => if s.dwellElapsed then { s with work := { s.work with split := .clear } } else s.exitDrain
  | .clear => ({ s with pending := false }).consumed

/-- S_CONSUME. -/
def State.stepConsume (s : State) : State :=
  if s.par.consumeSplit then s.stepConsumeSplit else s.stepConsumeWhole

/-- P_SLEEP: the sleep is over (the main context was woken no earlier than that), the read follows (R143). -/
def State.stepSleep (s : State) : State := { s with phase := .sReadInt }

/-- S_READ_INT: one attempt of the read of the interrupt source register (R143, R120). -/
def State.stepReadInt (s : State) : State :=
  match s.memRead s.par.sensor.regInt 1 with
  | (.done bs, s') =>
    { s' with phase := .sClassify,
              work := { s'.work with code := sourceCode s.par.sensor.intShift (bs.headD 0) } }
  | (.retry, s') => s'
  | (.error n c, s') => s'.raise .busError (.busFailure n c)

/-- S_APPEND (R166). -/
def State.stepAppend (s : State) : State :=
  match s.work.ev with
  | some e => { s.append e with phase := .sObserve }
  | none => { s with phase := .sConsume }

/-- S_OBSERVE (R167). -/
def State.stepObserve (s : State) : State :=
  match s.work.ev with
  | some e => { s.observe e with phase := .sThrottle }
  | none => { s with phase := .sConsume }

/-- S_THROTTLE (R169), after which the next iteration begins (R161). -/
def State.stepThrottle (s : State) : State :=
  match s.work.ev with
  | some e => { s.throttle e with phase := .sConsume, work := {} }
  | none => { s with phase := .sConsume }

/-- S_KEEPALIVE (R172), after which SERVICE ends: it answers its caller, or RUN goes on to R_BETWEEN (R161, R176). -/
def State.stepKeepalive (s : State) : State :=
  let s' := s.keepalive
  if s'.running then { s' with phase := .rBetween, work := {} } else s'.endOp.respond .ok (.count s'.drainN)

/-- R_BETWEEN: the one place where RUN looks at the stop signal (R176). -/
def State.stepBetween (s : State) : State :=
  if s.stopReq then (({ s with stopReq := false, running := false }).endOp).respond .ok .nothing
  else { s with phase := .sEntry }

end Sys2Proof.Machine
end

