-- ==== Sys2Proof/Machine/Sequencer.lean ====
section
/-! DEFINITION. The sequencer: which word the next move decodes, the micro-steps that run a decoded word, and the moves of
the environment (00_scope.md R5, 10_state.md R22, 20_memory.md R50, R56). -/

namespace Sys2Proof.Machine

/-- Run the word on the port of format `f`; a word that is no instruction does nothing (only a strobe of 0 and a gain byte
without a preset are such words). -/
def runWord (f : Format) (w : Nat) (s : State) : Host.Outcome State Fault Refusal :=
  match decode f w with
  | .ok i => exec i s
  | .error _ => .next s

/-- S_READ_DIST: one attempt of the distance read; its byte is the DIST6 word (43_event_capture.md R143). -/
def State.stepReadDist (s : State) : Host.Outcome State Fault Refusal :=
  match s.memRead s.par.sensor.regDist 1 with
  | (.done bs, s') => runWord .regByte (bs.headD 0).toNat s'
  | (.retry, s') => .next s'
  | (.error n c, s') => .next (s'.raise .busError (.busFailure n c))

/-- One attempt of an energy read that is not the last; its byte is kept (42_sensor_accessors.md R122). -/
def State.readEnergyByte (s : State) (reg : RegAddr) : State :=
  match s.memRead reg 1 with
  | (.done bs, s') => { s' with work := { s'.work with energyBytes := s'.work.energyBytes ++ [bs.headD 0] } }
  | (.retry, s') => s'
  | (.error n c, s') => s'.raise .busError (.busFailure n c)

/-- S_READ_ENERGY: one attempt of the next of the three reads, LSB, MID, MSB; the last one's byte completes the ENERGY21
word (42_sensor_accessors.md R122). -/
def State.stepReadEnergy (s : State) : Host.Outcome State Fault Refusal :=
  match s.work.energyBytes with
  | [] => .next (s.readEnergyByte s.par.sensor.regLsb)
  | [_] => .next (s.readEnergyByte s.par.sensor.regMid)
  | l :: m :: _ =>
    match s.memRead s.par.sensor.regMsb 1 with
    | (.done bs, s') => runWord .regByte3 (bs.headD 0 ++ m ++ l).toNat s'
    | (.retry, s') => .next s'
    | (.error n c, s') => .next (s'.raise .busError (.busFailure n c))

/-- A driver call begins. A register byte that encodes a setting is run as the instruction it encodes. -/
def State.startCall (s : State) (c : DrvCall) : Host.Outcome State Fault Refusal :=
  match c with
  | .field f b =>
    match driverWord f b with
    | some i => exec i s
    | none => .next (s.drvCall c)
  | .begin | .configure _ _ | .setMode _ | .setMinStrikes _ | .setDivider _ | .setNoiseFloor _ | .setWatchdog _ | .setSpike _
  | .setTuningCaps _ | .setDisturber _ | .setOscSource _ | .power _ | .clearStatistics | .status | .readField _
  | .writeReg _ _ => .next (s.drvCall c)

/-- The main context is free: it takes the oldest request that waits, or stays idle (20_memory.md R56). -/
def State.stepIdle (s : State) : Host.Outcome State Fault Refusal :=
  match s.waiting with
  | [] => .next s
  | .cmd w :: rest => exec (decodeCmd w) { s with waiting := rest }
  | .drv c :: rest => ({ s with waiting := rest }).startCall c

/-- The main context's next micro-step (10_state.md R22). -/
def State.microStep (s : State) : Host.Outcome State Fault Refusal :=
  match s.drvJob with
  | some j => .next (s.drvStep j)
  | none =>
    match s.phase with
    | .idle => s.stepIdle
    | .sEntry => .next s.stepEntry
    | .sConsume => .next s.stepConsume
    | .pSleep => .next s.stepSleep
    | .sReadInt => .next s.stepReadInt
    | .sClassify => exec (decodeSrc s.work.code) s
    | .sReadDist => s.stepReadDist
    | .sReadEnergy => s.stepReadEnergy
    | .sAppend => .next s.stepAppend
    | .sObserve => .next s.stepObserve
    | .sThrottle => .next s.stepThrottle
    | .sKeepalive => .next s.stepKeepalive
    | .rBetween => .next s.stepBetween

/-- The host puts a word on port `cmd`. STOP is accepted at any time (44_event_service.md R177); any other word that arrives
while earlier requests wait queues behind them (20_memory.md R56). -/
def State.cmdArrives (s : State) (w : CmdWord) : Host.Outcome State Fault Refusal :=
  if s.waiting.isEmpty || decide (decodeCmd w = .stop) then exec (decodeCmd w) s else .next (s.wait (.cmd w))

/-- The surrounding software calls the driver. -/
def State.callArrives (s : State) (c : DrvCall) : Host.Outcome State Fault Refusal :=
  if s.waiting.isEmpty then s.startCall c else .next (s.wait (.drv c))

/-- One move. -/
def State.move (s : State) : Move → Host.Outcome State Fault Refusal
  | .main => s.wake.microStep
  | .irq strobe => runWord .edge1 strobe.toNat s
  | .cmd w => s.cmdArrives w
  | .stopPort => .next { s with stopReq := true }
  | .advance d => .next { s with now := s.now + d }
  | .driver c => s.callArrives c
  | .driverState d => .next { s with driver := d }
  | .sensor reg b => .next { s with sensorRegs := s.sensorRegs.write reg.toNat b }

/-- The next move and the state it acts on: the next one scheduled, else a free value. -/
def State.nextMove (s : State) : Move × State :=
  match s.sched with
  | m :: rest => (m, { s with sched := rest })
  | [] => (Config.freeMove s.draws, { s with draws := s.draws + 1 })

/-- One step: the next move is made. -/
def State.stepMove (s : State) : Host.Outcome State Fault Refusal := s.nextMove.2.move s.nextMove.1

/-- Put a word where the next step takes it, on the port of format `f`, and schedule the move that takes it. -/
def State.placeWord (s : State) (f : Format) (w : Nat) : State :=
  match f with
  | .edge1 => { s with sched := .irq (BitVec.ofNat 1 w) :: s.sched }
  | .cmd16 =>
    { s with phase := .idle, drvJob := none, waiting := .cmd (BitVec.ofNat 16 w) :: s.waiting, sched := .main :: s.sched }
  | .src4 =>
    { s with phase := .sClassify, drvJob := none, work := { s.work with code := BitVec.ofNat 4 w },
             sched := .main :: s.sched }
  | .regByte =>
    { s with phase := .sReadDist, drvJob := none, busIn := .ok [BitVec.ofNat 8 w] :: s.busIn, sched := .main :: s.sched }
  | .regByte3 =>
    let v := BitVec.ofNat 24 w
    { s with phase := .sReadEnergy, drvJob := none,
             work := { s.work with energyBytes := [v.extractLsb' 0 8, v.extractLsb' 8 8] },
             busIn := .ok [v.extractLsb' 16 8] :: s.busIn, sched := .main :: s.sched }
  | .gainReg | .statusReg | .srcMaskReg =>
    { s with phase := .idle, drvJob := none, waiting := .drv (.field f (BitVec.ofNat 8 w)) :: s.waiting,
             sched := .main :: s.sched }

/-- Put a bare word of the opcode table where the next step takes it; a length no format has changes nothing. -/
def State.placeTableWord (s : State) (nbits w : Nat) : State :=
  match tableFormat nbits w with
  | some f => s.placeWord f w
  | none => s

end Sys2Proof.Machine
end

