-- ==== Sys2Proof/Safety.lean ====
section
/-! DEFINITION. What a safe run is, and the invariant the statements use. IDEC has no faults: a run is safe when it goes on for
ever and keeps the invariant (00_scope.md R6). -/

namespace Sys2Proof.Machine

/-- The step goes on: it is neither a fault nor a refusal. -/
def State.goesOn (s : State) : Prop := ∃ t, step s = .next t

/-- The parameter record's sizes are at least 1 (00_scope.md R4), and TAIL can name every length of the log (30_encoding.md
R72). -/
def State.sizesOk (s : State) : Prop := 1 ≤ s.par.logCapacity ∧ s.par.logCapacity ≤ 4095 ∧ 1 ≤ s.par.drainCap

/-- The RingLog holds at most its capacity, and LOG_WR is the slot the next append fills (10_state.md R18, R19). -/
def State.logOk (s : State) : Prop :=
  s.log.length ≤ s.par.logCapacity ∧ s.logWr < s.par.logCapacity ∧
  (s.log.length < s.par.logCapacity → s.logWr = s.log.length)

/-- Every stored timestamp is a past reading of `now` (10_state.md R12). -/
def State.timesOk (s : State) : Prop :=
  s.lastEdge ≤ s.now ∧ s.keepaliveTs ≤ s.now ∧ s.lastAccDisturber ≤ s.now ∧ s.lastAccNoise ≤ s.now ∧
  s.work.ts ≤ s.now ∧ (∀ e ∈ s.log, e.ts ≤ s.now) ∧ (∀ e ∈ s.work.ev, e.ts ≤ s.now)

/-- Every Event of the log, and the one in hand, is as the block makes Events (10_state.md R17); distance and energy
are read for Lightning only (43_event_capture.md R143). -/
def State.eventsOk (s : State) : Prop :=
  (∀ e ∈ s.log, e.wellFormed = true) ∧ (∀ e ∈ s.work.ev, e.wellFormed = true) ∧
  (s.phase = .sReadDist ∨ s.phase = .sReadEnergy → classify s.work.code = some .lightning)

/-- `DRAIN_N` is in `0 .. DRAIN_CAP` (10_state.md R22); a split consume that is under way has room to count. -/
def State.drainOk (s : State) : Prop :=
  s.drainN ≤ s.par.drainCap ∧ (s.work.split ≠ .readPending → s.drainN < s.par.drainCap)

/-- One operation at a time (20_memory.md R56): while RUNNING the sequencer is not idle, a READ_EVENT command is not part
of a RUN, and a driver operation has the main context to itself. -/
def State.contextOk (s : State) : Prop :=
  (s.running = true → s.phase ≠ .idle) ∧ (s.work.byHost = true → s.running = false) ∧
  (s.drvJob.isSome = true → s.phase = .idle)

/-- Only a registered callback sets PENDING (10_state.md R13, R15). -/
def State.captureOk (s : State) : Prop := s.pending = true → s.irqEn = true

/-- The invariant of the machine. -/
structure State.Inv (s : State) : Prop where
  sizes : s.sizesOk
  memory : s.sensorRegs.wf = true
  log : s.logOk
  times : s.timesOk
  events : s.eventsOk
  drain : s.drainOk
  context : s.contextOk
  capture : s.captureOk

/-- The next step is a go of the indivisible consume: the main context runs S_CONSUME below the cap with a capture whose
dwell has elapsed when it wakes (44_event_service.md R162). -/
def State.aboutToConsume (s : State) : Prop :=
  s.nextMove.1 = .main ∧ s.drvJob = none ∧ s.phase = .sConsume ∧ s.drainN ≠ s.par.drainCap ∧ s.pending = true ∧
  s.par.tDwell ≤ max s.now s.wakeAt - s.lastEdge

/-- The next step is an edge that the debouncer accepts (43_event_capture.md R140). -/
def State.aboutToAcceptEdge (s : State) : Prop := s.nextMove.1 = .irq 1 ∧ s.edgeAccepted = true

/-- `k` steps of the machine. -/
def State.steps (s : State) (k : Nat) : Host.Outcome State Fault Refusal := Host.Core.run Sys2Proof.core k s

/-- The state with the next `k` moves the main context's own: no move of the environment falls among them. -/
def State.undisturbed (s : State) (k : Nat) : State := { s with sched := List.replicate k .main ++ s.sched }

/-- What a register setting does when both bus attempts are answered with success (20_memory.md R44): register `reg` holds
`(old & ~mask) | bits`, `old` being the byte the read returned; every other register reads as before; the caller gets
the byte written; nothing else differs but the answers taken. -/
def settingWritten (s : State) (o : Host.Outcome State Fault Refusal) (reg : RegAddr) (mask bits : Byte) : Prop :=
  ∀ g g' rest, s.busIn = .ok g :: .ok g' :: rest → s.sensorRegs.wf = true →
    let after := ((g.getD 0 (s.sensorRegs.read reg.toNat)) &&& ~~~mask) ||| bits
    ∃ regs : Memory,
      o = .next { s with sensorRegs := regs, busIn := rest, busTry := 0,
                         out := s.out ++ [.busRead s.par.bus.addr reg 1, .busWrite s.par.bus.addr reg [after],
                                          .driver (.byte after)] } ∧
      regs.wf = true ∧ regs.read reg.toNat = after ∧ ∀ a, a ≠ reg.toNat → regs.read a = s.sensorRegs.read a

/-- The registers of the block that no bus traffic touches are in `t` as they are in `s`: DebounceState, IRQ_EN, the log, the throttle
state and the keepalive time, AGG, OBSERVER, STOP_REQ and DRAIN_N, and with them the parameters and the requests that
wait. -/
def State.recordsAs (t s : State) : Prop :=
  t.par = s.par ∧ t.pending = s.pending ∧ t.lastEdge = s.lastEdge ∧ t.irqEn = s.irqEn ∧ t.log = s.log ∧ t.logWr = s.logWr ∧
  t.lastAccDisturber = s.lastAccDisturber ∧ t.lastAccNoise = s.lastAccNoise ∧ t.lastSrc = s.lastSrc ∧
  t.keepaliveTs = s.keepaliveTs ∧ t.agg = s.agg ∧ t.observer = s.observer ∧ t.stopReq = s.stopReq ∧ t.drainN = s.drainN ∧
  t.waiting = s.waiting

/-- Every sensor register but `reg` reads in `t` as it reads in `s`. -/
def State.registersAsBut (t s : State) (reg : RegAddr) : Prop :=
  ∀ a, a ≠ reg.toNat → t.sensorRegs.read a = s.sensorRegs.read a

/-- What reads do to the sensor's registers (20_memory.md R49, 10_state.md R28 (a); assumption 13): in `t` every register reads
as in `s`, but for the interrupt source register where `cleared` says that a read of it reached the sensor: there the four
bits of the source code are 0 and the other bits are as they were. The register space keeps its canonical form. -/
def State.registersAfterReads (t s : State) (cleared : Bool) : Prop :=
  t.registersAsBut s s.par.sensor.regInt ∧
  (cleared = false → ∀ a, t.sensorRegs.read a = s.sensorRegs.read a) ∧
  (s.sensorRegs.wf = true → t.sensorRegs.wf = true ∧
    (cleared = true → t.sensorRegs.read s.par.sensor.regInt.toNat =
      s.sensorRegs.read s.par.sensor.regInt.toNat &&& ~~~(0x0F#8 <<< s.par.sensor.intShift)))

/-- The register that an attempt of the phase's read is for: interrupt source, distance, and energy LSB, MID, MSB in turn
(43_event_capture.md R143, 42_sensor_accessors.md R122). -/
def State.readRegister (s : State) : Option RegAddr :=
  match s.phase, s.work.energyBytes with
  | .sReadInt, _ => some s.par.sensor.regInt
  | .sReadDist, _ => some s.par.sensor.regDist
  | .sReadEnergy, [] => some s.par.sensor.regLsb
  | .sReadEnergy, [_] => some s.par.sensor.regMid
  | .sReadEnergy, _ :: _ :: _ => some s.par.sensor.regMsb
  | _, _ => none

/-- A failed attempt of a readModifyWrite, as the environment answers it: its read fails, or its read gives `got` and its
write fails; `reached` says whether the transfer that failed reached the sensor all the same. -/
structure FailedTry where
  got : Option Byte
  cause : Cause
  reached : Bool
  deriving DecidableEq, Repr

/-- The answers of a failed attempt. -/
def FailedTry.answers (f : FailedTry) : List BusAnswer :=
  match f.got with
  | none => [.fail f.cause f.reached]
  | some b => [.ok [b], .fail f.cause f.reached]

/-- What an attempt at register `reg` puts on the bus whose read gave `got`: the read, and the write made from it. -/
def attemptTraffic (addr : BusAddr) (reg : RegAddr) (mask bits : Byte) (got : Option Byte) : List Output :=
  match got with
  | none => [.busRead addr reg 1]
  | some b => [.busRead addr reg 1, .busWrite addr reg [(b &&& ~~~mask) ||| bits]]

/-- How a register setting is retried (20_memory.md R42, R44): `o` is the step that makes its first attempt. Read and write are one
retried unit: with at most RETRIES failed attempts, whether their reads or their writes fail, each is followed by one
BACKOFF and by a new read, and the setting is made from the last reading; with RETRIES + 1 of them the caller gets one
BusError that reports RETRIES + 1 attempts and the last cause. Nothing of the block changes, and no other register. -/
def settingRetried (s : State) (o : Host.Outcome State Fault Refusal) (reg : RegAddr) (mask bits : Byte) : Prop :=
  ∀ (fails : List FailedTry) (rest : List BusAnswer), s.sensorRegs.wf = true → s.busTry = 0 →
    let traffic := fails.flatMap fun f => attemptTraffic s.par.bus.addr reg mask bits f.got
    (∀ b : Byte, fails.length ≤ s.par.bus.retries →
      s.busIn = fails.flatMap FailedTry.answers ++ .ok [b] :: .ok [] :: rest →
      ∃ u t, o = .next u ∧ (u.undisturbed fails.length).steps fails.length = .next t ∧
        t.now = s.now + fails.length * s.par.bus.backoff ∧ t.drvJob = none ∧ t.busTry = 0 ∧ t.busIn = rest ∧
        t.sched = s.sched ∧ t.phase = s.phase ∧ t.running = s.running ∧ t.driver = s.driver ∧ t.recordsAs s ∧
        t.sensorRegs.read reg.toNat = (b &&& ~~~mask) ||| bits ∧ t.registersAsBut s reg ∧
        t.out = s.out ++ traffic ++ attemptTraffic s.par.bus.addr reg mask bits (some b) ++
          [.driver (.byte ((b &&& ~~~mask) ||| bits))]) ∧
    (∀ last, fails.length = s.par.bus.retries + 1 → fails.getLast? = some last →
      s.busIn = fails.flatMap FailedTry.answers ++ rest →
      ∃ u t, o = .next u ∧ (u.undisturbed s.par.bus.retries).steps s.par.bus.retries = .next t ∧
        t.now = s.now + s.par.bus.retries * s.par.bus.backoff ∧ t.drvJob = none ∧ t.busTry = 0 ∧ t.busIn = rest ∧
        t.sched = s.sched ∧ t.phase = s.phase ∧ t.running = s.running ∧ t.driver = s.driver ∧ t.recordsAs s ∧
        t.registersAsBut s reg ∧
        t.out = s.out ++ traffic ++ [.driver (.busFailure (s.par.bus.retries + 1) last.cause)])

end Sys2Proof.Machine
end

