-- ==== Sys2Proof/Certificates/Slice0/Obligations.lean ====
section
/-! DEFINITION. The statements for the provers, from the numbered rules of spec/. A docstring names the rule or section it rests
on, and says where a clause is the spec's own decision (D<n> of 92_eei_decisions.md) or the model's choice
(assumption <n>). Throughout, the schedule, the answers to come and the ports' record are the model's form of the environment
(assumption 6), and how many steps an operation takes is its division into micro-steps (assumption 7). -/

open Sys2Proof Sys2Proof.Machine

/-! ### Encodings -/

/-- Words written out bit by bit from the spec's encodings decode to the instructions they stand for, one word for each
family (30_encoding.md R71, R73, R79; 95_test_vectors.md section 10). -/
def Obligations.WrittenWordsDecode : Prop :=
  decode .edge1 0b1 = .ok .edge ∧
  decode .cmd16 0b0011000000000000 = .ok .service ∧
  decode .cmd16 0b0101000000000010 = .ok (.readEvent 2) ∧
  decode .cmd16 0b0111000100000000 = .ok (.tail 256) ∧
  decode .cmd16 0b0010111111111111 = .ok (.stopNonzeroArg 0xFFF) ∧
  decode .src4 0b1101 = .ok (.srcLightning 0b101) ∧
  decode .src4 0b0011 = .ok (.srcNoise 1) ∧
  decode .regByte 0xC5 = .ok (.dist6 0xC5) ∧
  decode .regByte3 0xE11234 = .ok (.energy21 0xE1 0x12 0x34) ∧
  decode .gainReg 0b11100101 = .ok (.gainIndoor 0b11 1) ∧
  decode .statusReg 0b01011111 = .ok (.minStrikes5 0b01 0b1111) ∧
  decode .srcMaskReg 0b10000000 = .ok (.divider64 0)

/-- Decode and encode agree: for every well-formed instruction, decoding its word on its own port gives it back, with every
operand at every value the encoding admits. -/
def Obligations.DecodeOfEncodeIsTheInstruction : Prop :=
  ∀ i : Instr, i.wellFormed = true → decode i.format (encode i) = .ok i

/-- Every word that decodes is the word of the instruction it decodes to, and that instruction is well formed and of the
port's format: no bit is lost and no two words stand for one instruction. -/
def Obligations.EncodeOfDecodeIsTheWord : Prop :=
  ∀ (f : Format) (w : Nat) (i : Instr), decode f w = .ok i → i.wellFormed = true ∧ i.format = f ∧ encode i = w

/-- Of the words of a format's width, only the strobe 0 and a gain byte whose bits [5:1] are neither preset are
rejected (30_encoding.md R82; 41_register_codecs.md R102). -/
def Obligations.OnlyStrobeZeroAndPresetlessGainAreRejected : Prop :=
  ∀ (f : Format) (w : Nat), w < 2 ^ f.bits →
    ((∃ r, decode f w = .error r) ↔
      (f = .edge1 ∧ w = 0) ∨ (f = .gainReg ∧ w / 2 % 32 ≠ 0b10010 ∧ w / 2 % 32 ≠ 0b01110))

/-- R78 (a) and (b), on the word and for each of the six refused rows: `op` in {0, 8 .. 15}, or `op` in {1 .. 4} with a nonzero
`arg`: STATUS = REFUSED and no register changes, when the main context takes the word, which needs nothing but that no
operation is in progress (vector V8.6, 'any state'). While one is in progress the word waits, as any command but STOP does
(20_memory.md R56; 00_scope.md R2 counts the reserved command space among the commands, and 44_event_service.md R177 names
STOP as the one exception), and it is still that word which is then taken. The command words are the spec's own (D20, D22);
that the answer waits for the main context, also in V8.6's 'any state', is assumption 8, and that an operation of the
driver counts as one in progress is assumption 9. -/
def Obligations.ReservedCommandWordsAreRefused : Prop :=
  (∀ (w : CmdWord) (s : State),
    (w.toNat / 4096 = 0 ∨ 8 ≤ w.toNat / 4096 ∨ (w.toNat / 4096 ≤ 4 ∧ w.toNat % 4096 ≠ 0)) →
    (s.phase = .idle → s.drvJob = none →
      exec (decodeCmd w) s = .next { s with out := s.out ++ [.rsp .refused .nothing] }) ∧
    ((s.phase ≠ .idle ∨ s.drvJob.isSome = true) →
      exec (decodeCmd w) s = .next { s with waiting := s.waiting ++ [.cmd w] })) ∧
  ∀ (arg : Arg12) (arg15 : BitVec 15) (s : State), s.phase = .idle → s.drvJob = none →
    exec (.reservedOp0 arg) s = .next { s with out := s.out ++ [.rsp .refused .nothing] } ∧
    exec (.reservedOp8F arg15) s = .next { s with out := s.out ++ [.rsp .refused .nothing] } ∧
    exec (.startNonzeroArg arg) s = .next { s with out := s.out ++ [.rsp .refused .nothing] } ∧
    exec (.stopNonzeroArg arg) s = .next { s with out := s.out ++ [.rsp .refused .nothing] } ∧
    exec (.serviceNonzeroArg arg) s = .next { s with out := s.out ++ [.rsp .refused .nothing] } ∧
    exec (.runNonzeroArg arg) s = .next { s with out := s.out ++ [.rsp .refused .nothing] }

/-- `EVTREC` (30_encoding.md R76; the positions are the spec's own, D21): every field stands at its bits, and the record
decodes to the Event it was made from. -/
def Obligations.EvtrecHoldsEveryFieldAndDecodes : Prop :=
  ∀ e : Event,
    evtrec e % 2 ^ 4 = e.raw.toNat ∧
    evtrec e / 2 ^ 4 % 2 ^ 4 = (kind4 (some e.kind)).toNat ∧
    evtrec e / 2 ^ 8 % 2 = e.distanceKm.isSome.toNat ∧
    evtrec e / 2 ^ 9 % 2 ^ 6 = (e.distanceKm.getD 0).toNat ∧
    evtrec e / 2 ^ 15 % 2 = e.energy.isSome.toNat ∧
    evtrec e / 2 ^ 16 % 2 ^ 21 = (e.energy.getD 0).toNat ∧
    evtrec e / 2 ^ 37 = e.ts ∧
    evtrecDecode (evtrec e) = some e

/-- R80: operand assembly on the sensor side. The source code and the distance are the 4 and 6 bits of the byte from their
shift up, the energy is `(MSB & 0x1F) << 16 | MID << 8 | LSB`; all unsigned and unscaled, for every shift. -/
def Obligations.OperandsAreAssembledUnsigned : Prop :=
  ∀ (shift : Nat) (b l m h : Byte),
    (sourceCode shift b).toNat = b.toNat / 2 ^ shift % 16 ∧
    (maskDistance shift b).toNat = b.toNat / 2 ^ shift % 64 ∧
    (assembleEnergy l m h).toNat = h.toNat % 32 * 65536 + m.toNat * 256 + l.toNat

/-- R100: classification by fixed priority, bit 1 never counting. -/
def Obligations.ClassificationIsByFixedPriority : Prop :=
  ∀ c : Code4, classify c =
    if 8 ≤ c.toNat then some .lightning
    else if 4 ≤ c.toNat then some .disturber
    else if c.toNat % 2 = 1 then some .noise
    else none

/-- The codecs of 41_register_codecs.md R102 to R107, outright: a minimum-strike count encodes exactly if it is 1, 5, 9 or 16, to 0,
1, 2, 3, and the decode is the inverse and "unknown" for any other code; a divider encodes exactly if it is 16, 32, 64 or
128, to 0, 1, 2, 3, and the decode is the inverse; the two gain presets and their decode; the capacitance is its floor in
steps of 8 pF, clamped to 0 to 15, and decodes to 8 pF a step. The floor is the spec's own (D31). -/
def Obligations.DriverCodecsMapTheLegalValues : Prop :=
  (∀ n k, strikesEncode n = some k ↔ (n = 1 ∧ k = 0) ∨ (n = 5 ∧ k = 1) ∨ (n = 9 ∧ k = 2) ∨ (n = 16 ∧ k = 3)) ∧
  (∀ k n, strikesDecode k = some n ↔ (n = 1 ∧ k = 0) ∨ (n = 5 ∧ k = 1) ∨ (n = 9 ∧ k = 2) ∨ (n = 16 ∧ k = 3)) ∧
  (∀ n k, dividerEncode n = some k ↔ (n = 16 ∧ k = 0) ∨ (n = 32 ∧ k = 1) ∨ (n = 64 ∧ k = 2) ∨ (n = 128 ∧ k = 3)) ∧
  (∀ k n, dividerDecode k = n ↔ (n = 16 ∧ k = 0) ∨ (n = 32 ∧ k = 1) ∨ (n = 64 ∧ k = 2) ∨ (n = 128 ∧ k = 3)) ∧
  (gainPreset .indoor = 0b10010 ∧ gainPreset .outdoor = 0b01110 ∧
    gainMode 0b10010 = some .indoor ∧ gainMode 0b01110 = some .outdoor) ∧
  (∀ pf : Int, (tuningSteps pf).toNat = min 15 (pf.toNat / 8)) ∧
  (∀ steps : Byte, tuningPf steps = 8 * steps.toNat) ∧
  (∀ n : Nat, n ≤ 15 → ∀ r : Nat, r < 8 → tuningPf (tuningSteps ((8 * n + r : Nat) : Int)) = 8 * n)

/-! ### The edge -/

/-- R140: an edge is accepted when the callback is registered and nothing is pending or strictly more than T_DEBOUNCE has
passed since LAST_EDGE; then PENDING and LAST_EDGE are written, both, and nothing else is. An edge that is not
accepted changes nothing. The IRQ_EN test is the spec's own (D25). -/
def Obligations.EdgeWritesDebounceStateOrNothing : Prop :=
  ∀ s : State, exec .edge s = .next
    (if s.irqEn = true ∧ (s.pending = false ∨ s.par.tDebounce < s.now - s.lastEdge)
      then { s with pending := true, lastEdge := s.now } else s)

/-! ### The commands: when they complete, and what they change -/

/-- R160: START sets IRQ_EN and nothing else (D25). -/
def Obligations.StartRegistersTheCallback : Prop :=
  ∀ s : State, s.phase = .idle → s.drvJob = none →
    exec .start s = .next { s with irqEn := true, out := s.out ++ [.rsp .ok .nothing] }

/-- R177: STOP latches STOP_REQ and nothing else, whatever is in progress; an assertion of the port does the same with no
response (D27). -/
def Obligations.StopLatchesInEveryState : Prop :=
  ∀ s : State,
    exec .stop s = .next { s with stopReq := true, out := s.out ++ [.rsp .ok .nothing] } ∧
    ∀ rest, s.sched = .stopPort :: rest → step s = .next { s with sched := rest, stopReq := true }

/-- R174: SET_OBSERVER registers the sink, 0 un-registers; the last registration wins (D26). -/
def Obligations.SetObserverReplacesTheSink : Prop :=
  ∀ (id : Arg12) (s : State), s.phase = .idle → s.drvJob = none →
    exec (.setObserver id) s =
      .next { s with observer := if id = 0 then none else some id, out := s.out ++ [.rsp .ok .nothing] }

/-- R175: TAIL n answers the last n Events, or all, oldest first, and writes nothing. -/
def Obligations.TailAnswersTheLastEvents : Prop :=
  ∀ (n : Arg12) (s : State), s.phase = .idle → s.drvJob = none →
    exec (.tail n) s =
      .next { s with out := s.out ++ [.rsp .ok (.events (s.log.drop (s.log.length - n.toNat)))] }

/-- R161, R176: SERVICE goes to S_ENTRY; RUN clears a stale STOP_REQ, sets RUNNING and goes to S_ENTRY (D18, D27). -/
def Obligations.ServiceAndRunEnterTheLoop : Prop :=
  ∀ s : State, s.phase = .idle → s.drvJob = none →
    exec .service s = .next { s with phase := .sEntry, work := {} } ∧
    exec .run s = .next { s with stopReq := false, running := true, phase := .sEntry, work := {} }

/-- R143, R144: READ_EVENT. With the sensor configured it begins its settle sleep of `d` ticks, `d` unscaled; PENDING, the log and
the throttle state are not touched (D9, D14). Before that it raises NotInitializedError: no sleep, no bus traffic (R193,
R203; D19). -/
def Obligations.ReadEventSleepsOrRaisesNotInitialized : Prop :=
  ∀ (d : Arg12) (s : State), s.phase = .idle → s.drvJob = none →
    (s.driver = .configured → exec (.readEvent d) s =
      .next { s with phase := .pSleep, work := { byHost := true }, wakeAt := s.now + d.toNat }) ∧
    (s.driver ≠ .configured → exec (.readEvent d) s =
      .next { s with work := {}, running := false, busTry := 0, out := s.out ++ [.rsp .notInitialized .nothing] })

/-- 20_memory.md R56: a command that arrives while another operation is in progress waits, as its word; nothing else
happens. STOP alone is excepted (R177, StopLatchesInEveryState); a word of the reserved command space waits (assumption 8),
a STOP with a nonzero `arg` among them. A register setting of the surrounding driver waits too, as its register byte: that the driver shares the one
main context and its queue is the model's (assumption 9). -/
def Obligations.RequestsWaitWhileBusy : Prop :=
  ∀ s : State, (s.phase ≠ .idle ∨ s.drvJob.isSome = true) →
    exec .start s = .next { s with waiting := s.waiting ++ [.cmd 0x1000] } ∧
    exec .service s = .next { s with waiting := s.waiting ++ [.cmd 0x3000] } ∧
    exec .run s = .next { s with waiting := s.waiting ++ [.cmd 0x4000] } ∧
    (∀ d, exec (.readEvent d) s = .next { s with waiting := s.waiting ++ [.cmd (0x5#4 ++ d)] }) ∧
    (∀ id, exec (.setObserver id) s = .next { s with waiting := s.waiting ++ [.cmd (0x6#4 ++ id)] }) ∧
    (∀ n, exec (.tail n) s = .next { s with waiting := s.waiting ++ [.cmd (0x7#4 ++ n)] }) ∧
    (∀ arg, exec (.reservedOp0 arg) s = .next { s with waiting := s.waiting ++ [.cmd (0x0#4 ++ arg)] }) ∧
    (∀ arg, exec (.reservedOp8F arg) s = .next { s with waiting := s.waiting ++ [.cmd (1#1 ++ arg)] }) ∧
    (∀ arg, exec (.startNonzeroArg arg) s = .next { s with waiting := s.waiting ++ [.cmd (0x1#4 ++ arg)] }) ∧
    (∀ arg, exec (.stopNonzeroArg arg) s = .next { s with waiting := s.waiting ++ [.cmd (0x2#4 ++ arg)] }) ∧
    (∀ arg, exec (.serviceNonzeroArg arg) s = .next { s with waiting := s.waiting ++ [.cmd (0x3#4 ++ arg)] }) ∧
    (∀ arg, exec (.runNonzeroArg arg) s = .next { s with waiting := s.waiting ++ [.cmd (0x4#4 ++ arg)] }) ∧
    (∀ x p, exec (.gainIndoor x p) s =
      .next { s with waiting := s.waiting ++ [.drv (.field .gainReg (x ++ 0b10010#5 ++ p))] }) ∧
    (∀ x p, exec (.gainOutdoor x p) s =
      .next { s with waiting := s.waiting ++ [.drv (.field .gainReg (x ++ 0b01110#5 ++ p))] }) ∧
    (∀ hi lo, exec (.minStrikes1 hi lo) s =
      .next { s with waiting := s.waiting ++ [.drv (.field .statusReg (hi ++ 0b00#2 ++ lo))] }) ∧
    (∀ hi lo, exec (.minStrikes5 hi lo) s =
      .next { s with waiting := s.waiting ++ [.drv (.field .statusReg (hi ++ 0b01#2 ++ lo))] }) ∧
    (∀ hi lo, exec (.minStrikes9 hi lo) s =
      .next { s with waiting := s.waiting ++ [.drv (.field .statusReg (hi ++ 0b10#2 ++ lo))] }) ∧
    (∀ hi lo, exec (.minStrikes16 hi lo) s =
      .next { s with waiting := s.waiting ++ [.drv (.field .statusReg (hi ++ 0b11#2 ++ lo))] }) ∧
    (∀ lo, exec (.divider16 lo) s =
      .next { s with waiting := s.waiting ++ [.drv (.field .srcMaskReg (0b00#2 ++ lo))] }) ∧
    (∀ lo, exec (.divider32 lo) s =
      .next { s with waiting := s.waiting ++ [.drv (.field .srcMaskReg (0b01#2 ++ lo))] }) ∧
    (∀ lo, exec (.divider64 lo) s =
      .next { s with waiting := s.waiting ++ [.drv (.field .srcMaskReg (0b10#2 ++ lo))] }) ∧
    (∀ lo, exec (.divider128 lo) s =
      .next { s with waiting := s.waiting ++ [.drv (.field .srcMaskReg (0b11#2 ++ lo))] })

/-! ### The words the sensor answers with -/

/-- R143 at S_CLASSIFY, the four rows of the source code: Lightning takes `t <- now` and goes on to the distance read; in the
drain a Disturber or Noise becomes the Event of that time without distance and energy, and no event ends the
iteration. For READ_EVENT as a command the Event, or no event with STATUS = OK, goes to the caller and to nobody else (R144).
The moment of `t` and the caller are the spec's own (D11, D14). -/
def Obligations.SourceRowsEndTheRead : Prop :=
  ∀ s : State, s.phase = .sClassify →
    (∀ x, exec (.srcLightning x) s =
      .next { s with phase := .sReadDist, work := { s.work with code := 1#1 ++ x, ts := s.now } }) ∧
    (s.work.byHost = false →
      (∀ x : BitVec 2,
        let e : Event := { ts := s.now, kind := .disturber, distanceKm := none, energy := none, raw := 0b01#2 ++ x }
        exec (.srcDisturber x) s = .next { s with phase := .sAppend, work := { ev := some e } }) ∧
      (∀ x : BitVec 1,
        let e : Event := { ts := s.now, kind := .noise, distanceKm := none, energy := none, raw := 0b00#2 ++ x ++ 1#1 }
        exec (.srcNoise x) s = .next { s with phase := .sAppend, work := { ev := some e } }) ∧
      (∀ x, exec (.srcNone x) s = .next { s with phase := .sConsume, work := {} })) ∧
    (s.work.byHost = true →
      (∀ x, exec (.srcDisturber x) s = .next { s with
        phase := .idle, work := {},
        out := s.out ++ [.rsp .ok (.event (some
          { ts := s.now, kind := .disturber, distanceKm := none, energy := none, raw := 0b01#2 ++ x }))] }) ∧
      (∀ x, exec (.srcNoise x) s = .next { s with
        phase := .idle, work := {},
        out := s.out ++ [.rsp .ok (.event (some
          { ts := s.now, kind := .noise, distanceKm := none, energy := none, raw := 0b00#2 ++ x ++ 1#1 }))] }) ∧
      (∀ x, exec (.srcNone x) s = .next { s with phase := .idle, work := {}, out := s.out ++ [.rsp .ok (.event none)] }))

/-- R121, R122, R143: the distance byte ends S_READ_DIST with the masked distance, the energy bytes end S_READ_ENERGY with the
Lightning Event, which goes to the drain or to the polling host. -/
def Obligations.DistanceAndEnergyMakeTheLightningEvent : Prop :=
  ∀ s : State,
    (s.phase = .sReadDist → ∀ b : Byte, exec (.dist6 b) s = .next { s with
      phase := .sReadEnergy,
      work := { s.work with dist := BitVec.ofNat 6 (b.toNat / 2 ^ s.par.sensor.distShift), energyBytes := [] } }) ∧
    (s.phase = .sReadEnergy → ∀ h m l : Byte,
      let e : Event := { ts := s.work.ts, kind := .lightning, distanceKm := some s.work.dist,
                         energy := some (BitVec.ofNat 21 (h.toNat % 32 * 65536 + m.toNat * 256 + l.toNat)),
                         raw := s.work.code }
      exec (.energy21 h m l) s = .next
        (if s.work.byHost = true then
          { s with phase := .idle, work := {}, out := s.out ++ [.rsp .ok (.event (some e))] }
        else { s with phase := .sAppend, work := { ev := some e } }))

/-- Outside the read that takes its result a decode function changes nothing (41_register_codecs.md R100: pure; what a stray
word does is the model's choice, assumption 16). -/
def Obligations.StraySensorWordsChangeNothing : Prop :=
  ∀ s : State,
    (s.phase ≠ .sClassify → (∀ x, exec (.srcLightning x) s = .next s) ∧ (∀ x, exec (.srcDisturber x) s = .next s) ∧
      (∀ x, exec (.srcNoise x) s = .next s) ∧ (∀ x, exec (.srcNone x) s = .next s)) ∧
    (s.phase ≠ .sReadDist → ∀ b, exec (.dist6 b) s = .next s) ∧
    (s.phase ≠ .sReadEnergy → ∀ h m l, exec (.energy21 h m l) s = .next s)

/-! ### The surrounding driver -/

/-- R102, R103, R105 with 20_memory.md R44: each register setting stores its code in its field by readModifyWrite and leaves the
register's other bits, the power-down flag among them, and every other register as they were. One clause for each of the
ten rows. The registers' addresses are open parameters. -/
def Obligations.RegisterSettingsKeepTheOtherBits : Prop :=
  ∀ s : State, s.phase = .idle → s.drvJob = none →
    (∀ x p, settingWritten s (exec (.gainIndoor x p) s) s.par.drv.regGain 0x3E 0x24) ∧
    (∀ x p, settingWritten s (exec (.gainOutdoor x p) s) s.par.drv.regGain 0x3E 0x1C) ∧
    (∀ hi lo, settingWritten s (exec (.minStrikes1 hi lo) s) s.par.drv.regStatus 0x30 0x00) ∧
    (∀ hi lo, settingWritten s (exec (.minStrikes5 hi lo) s) s.par.drv.regStatus 0x30 0x10) ∧
    (∀ hi lo, settingWritten s (exec (.minStrikes9 hi lo) s) s.par.drv.regStatus 0x30 0x20) ∧
    (∀ hi lo, settingWritten s (exec (.minStrikes16 hi lo) s) s.par.drv.regStatus 0x30 0x30) ∧
    (∀ lo, settingWritten s (exec (.divider16 lo) s) s.par.drv.regSrcMask 0xC0 0x00) ∧
    (∀ lo, settingWritten s (exec (.divider32 lo) s) s.par.drv.regSrcMask 0xC0 0x40) ∧
    (∀ lo, settingWritten s (exec (.divider64 lo) s) s.par.drv.regSrcMask 0xC0 0x80) ∧
    (∀ lo, settingWritten s (exec (.divider128 lo) s) s.par.drv.regSrcMask 0xC0 0xC0)

/-- R42, R44, R46 on each of the ten register settings: the read and the write of a readModifyWrite are one retried unit
(settingRetried of Sys2Proof/Safety.lean, for any failed attempts). The registers' addresses are open parameters. -/
def Obligations.FailedSettingIsRetriedAsAWhole : Prop :=
  ∀ s : State, s.phase = .idle → s.drvJob = none →
    (∀ x p, settingRetried s (exec (.gainIndoor x p) s) s.par.drv.regGain 0x3E 0x24) ∧
    (∀ x p, settingRetried s (exec (.gainOutdoor x p) s) s.par.drv.regGain 0x3E 0x1C) ∧
    (∀ hi lo, settingRetried s (exec (.minStrikes1 hi lo) s) s.par.drv.regStatus 0x30 0x00) ∧
    (∀ hi lo, settingRetried s (exec (.minStrikes5 hi lo) s) s.par.drv.regStatus 0x30 0x10) ∧
    (∀ hi lo, settingRetried s (exec (.minStrikes9 hi lo) s) s.par.drv.regStatus 0x30 0x20) ∧
    (∀ hi lo, settingRetried s (exec (.minStrikes16 hi lo) s) s.par.drv.regStatus 0x30 0x30) ∧
    (∀ lo, settingRetried s (exec (.divider16 lo) s) s.par.drv.regSrcMask 0xC0 0x00) ∧
    (∀ lo, settingRetried s (exec (.divider32 lo) s) s.par.drv.regSrcMask 0xC0 0x40) ∧
    (∀ lo, settingRetried s (exec (.divider64 lo) s) s.par.drv.regSrcMask 0xC0 0x80) ∧
    (∀ lo, settingRetried s (exec (.divider128 lo) s) s.par.drv.regSrcMask 0xC0 0xC0)

/-- R128, R130, R106 by a call of the driver: the power bit, each setter at each value in its range, and the disturber mask bit store
their field by readModifyWrite and leave the register's other bits and every other register as they were, in every driver
state, which stays as it is. The bit of power-down is 1; the places of the last five fields are open parameters, and that their bits
are neighbours is the model's (assumption 30); so is that the mask bit is 1 when reporting is off (assumption 19), and
that the setters run in every driver state (assumption 18). -/
def Obligations.SettersAndPowerBitWriteTheirFieldOnly : Prop :=
  ∀ (s : State) (ms : List Move) (c : DrvCall),
    s.sched = .driver c :: ms → s.phase = .idle → s.drvJob = none → s.waiting = [] →
    let u := { s with sched := ms }
    let d := s.par.drv
    (∀ down, c = .power down → settingWritten u (step s) d.regGain 0x01 (if down = true then 1 else 0)) ∧
    (c = .setMode .indoor → settingWritten u (step s) d.regGain 0x3E 0x24) ∧
    (c = .setMode .outdoor → settingWritten u (step s) d.regGain 0x3E 0x1C) ∧
    (c = .setMinStrikes 1 → settingWritten u (step s) d.regStatus 0x30 0x00) ∧
    (c = .setMinStrikes 5 → settingWritten u (step s) d.regStatus 0x30 0x10) ∧
    (c = .setMinStrikes 9 → settingWritten u (step s) d.regStatus 0x30 0x20) ∧
    (c = .setMinStrikes 16 → settingWritten u (step s) d.regStatus 0x30 0x30) ∧
    (c = .setDivider 16 → settingWritten u (step s) d.regSrcMask 0xC0 0x00) ∧
    (c = .setDivider 32 → settingWritten u (step s) d.regSrcMask 0xC0 0x40) ∧
    (c = .setDivider 64 → settingWritten u (step s) d.regSrcMask 0xC0 0x80) ∧
    (c = .setDivider 128 → settingWritten u (step s) d.regSrcMask 0xC0 0xC0) ∧
    (∀ v, v ≤ 7 → c = .setNoiseFloor v → settingWritten u (step s) d.noiseFloor.reg
      (7#8 <<< d.noiseFloor.shift.val) (BitVec.ofNat 8 v <<< d.noiseFloor.shift.val)) ∧
    (∀ v, v ≤ 15 → c = .setWatchdog v → settingWritten u (step s) d.watchdog.reg
      (15#8 <<< d.watchdog.shift.val) (BitVec.ofNat 8 v <<< d.watchdog.shift.val)) ∧
    (∀ v, v ≤ 15 → c = .setSpike v → settingWritten u (step s) d.spike.reg
      (15#8 <<< d.spike.shift.val) (BitVec.ofNat 8 v <<< d.spike.shift.val)) ∧
    (∀ pf, c = .setTuningCaps pf → settingWritten u (step s) d.tuning.reg
      (15#8 <<< d.tuning.shift.val) (BitVec.ofNat 8 (min 15 (pf.toNat / 8)) <<< d.tuning.shift.val)) ∧
    (∀ enabled, c = .setDisturber enabled → settingWritten u (step s) d.disturber.reg
      (1#8 <<< d.disturber.shift.val) (if enabled = true then 0 else 1#8 <<< d.disturber.shift.val))

/-- R127, with R42 and R46: `begin()` is one read whose value is discarded, tried again after BACKOFF when it fails. When it succeeds
after failed attempts, at most as many as the policy's retries allow, the driver is Initialized; when every attempt fails
the driver stays as it was and the caller gets "device not responding", never a BusError, with no sleep after the last
attempt. Nothing else changes, but for the source code that a read of the interrupt source register clears, were it the
register read (assumption 13). -/
def Obligations.BeginConfirmsTheDevice : Prop :=
  ∀ (s : State) (ms : List Move) (fails : List (Cause × Bool)) (rest : List BusAnswer),
    s.sched = .driver .begin :: (List.replicate fails.length .main ++ ms) → s.phase = .idle → s.drvJob = none →
    s.waiting = [] → s.driver = .uninitialized →
    let reg := s.par.drv.regBegin
    let now := s.now + fails.length * s.par.bus.backoff
    let wakeAt := if fails.length = 0 then s.wakeAt else now
    let traffic := s.out ++ List.replicate (fails.length + 1) (.busRead s.par.bus.addr reg 1)
    (∀ g, fails.length ≤ s.par.bus.retries - s.busTry → s.busIn = fails.map (fun f => .fail f.1 f.2) ++ .ok g :: rest →
      ∃ t, s.steps (fails.length + 1) = .next t ∧
        t = { s with sched := ms, busIn := rest, busTry := 0, now := now, wakeAt := wakeAt, driver := .initialized,
                     sensorRegs := t.sensorRegs, out := traffic ++ [.driver .done] } ∧
        t.registersAfterReads s (decide (reg = s.par.sensor.regInt))) ∧
    (∀ c reached, fails.length = s.par.bus.retries - s.busTry →
      s.busIn = fails.map (fun f => .fail f.1 f.2) ++ .fail c reached :: rest →
      ∃ t, s.steps (fails.length + 1) = .next t ∧
        t = { s with sched := ms, busIn := rest, busTry := 0, now := now, wakeAt := wakeAt,
                     sensorRegs := t.sensorRegs, out := traffic ++ [.driver .deviceNotResponding] } ∧
        t.registersAfterReads s (decide (reg = s.par.sensor.regInt) && (reached || fails.any (fun f => f.2))))

/-- R126, R129, R246: the configuration sequence, every attempt answered with success. It writes the default calibration, and when
that alone is on the bus it begins to wait T_SETTLE_CFG; after that wait, and with no other, it sets the interrupt-output
source with the other bits cleared first, and writes the fields of the SensorConfig, in this order and with nothing else on
the bus; `gs` are the bytes the ten readModifyWrites read. Then an
Initialized driver is Configured, so SENSOR_READY is 1; no register of the block changes. That a calibration register is one plain
write is the model's (assumption 31), and so is that the output bits are cleared one by one (assumption 32). The order within
the SensorConfig and the source 'none' are the model's (assumption 18), and so are the mask bit's polarity (assumption 19),
the pF of its capacitance (assumption 29) and the neighbouring bits of a field (assumption 30). -/
def Obligations.ConfigurationSequenceLeadsToConfigured : Prop :=
  ∀ (s : State) (ms : List Move) (c : SensorConfig) (src : OscSource) (code : Byte) (gs : List Byte)
    (rest : List BusAnswer),
    let d := s.par.drv
    let cal := d.calibration
    let source := match src with
      | .none => [(fieldAt d.oscAntenna, 0#8), (fieldAt d.oscSystem, 0#8), (fieldAt d.oscInternal, 0#8)]
      | .antenna => [(fieldAt d.oscSystem, 0#8), (fieldAt d.oscInternal, 0#8), (fieldAt d.oscAntenna, 1#8)]
      | .system => [(fieldAt d.oscAntenna, 0#8), (fieldAt d.oscInternal, 0#8), (fieldAt d.oscSystem, 1#8)]
      | .internal => [(fieldAt d.oscAntenna, 0#8), (fieldAt d.oscSystem, 0#8), (fieldAt d.oscInternal, 1#8)]
    let fields := [(gainField s.par, if c.mode = .indoor then 0b10010#8 else 0b01110#8),
      (fieldAt d.noiseFloor, BitVec.ofNat 8 c.noiseFloor), (fieldAt d.watchdog, BitVec.ofNat 8 c.watchdog),
      (fieldAt d.spike, BitVec.ofNat 8 c.spike), (strikesField s.par, code),
      (fieldAt d.tuning, BitVec.ofNat 8 (min 15 (c.tuningPf.toNat / 8))),
      (fieldAt d.disturber, if c.disturberEnabled = true then 0#8 else 1#8)]
    let traffic := ((source ++ fields).zip gs).flatMap fun fg =>
      let f := fg.1.1
      [Output.busRead s.par.bus.addr f.reg 1,
       .busWrite s.par.bus.addr f.reg [(fg.2 &&& ~~~f.mask) ||| ((fg.1.2 <<< f.shift) &&& f.mask)]]
    s.sched = .driver (.configure c src) :: (List.replicate (cal.length + 10) .main ++ ms) →
    s.phase = .idle → s.drvJob = none → s.waiting = [] → s.driver = .initialized → s.wakeAt ≤ s.now →
    c.noiseFloor ≤ 7 → c.watchdog ≤ 15 → c.spike ≤ 15 →
    (c.minStrikes = 1 ∧ code = 0 ∨ c.minStrikes = 5 ∧ code = 1 ∨ c.minStrikes = 9 ∧ code = 2 ∨
      c.minStrikes = 16 ∧ code = 3) →
    gs.length = 10 →
    s.busIn = List.replicate cal.length (.ok []) ++ gs.flatMap (fun g => [.ok [g], .ok []]) ++ rest →
    let calibrated := s.out ++ cal.map (fun rb => .busWrite s.par.bus.addr rb.1 [rb.2])
    (∃ u, s.steps (cal.length + 1) = .next u ∧ u.out = calibrated ∧ u.now = s.now ∧
      u.wakeAt = s.now + s.par.tSettleCfg ∧ u.driver = .initialized ∧ u.drvJob.isSome = true) ∧
    ∃ t, s.steps (cal.length + 11) = .next t ∧ t.driver = .configured ∧ t.drvJob = none ∧ t.sched = ms ∧
      t.busIn = rest ∧ t.now = s.now + s.par.tSettleCfg ∧ t.wakeAt = s.now + s.par.tSettleCfg ∧ t.phase = s.phase ∧
      t.running = s.running ∧ t.recordsAs s ∧ t.out = calibrated ++ traffic ++ [.driver .done]

/-- R128, R192: a value out of range is rejected with ValidationError before any bus traffic: noise floor above 7, watchdog or
spike rejection above 15, a minimum-strike count other than 1, 5, 9, 16, a divider other than 16, 32, 64, 128. -/
def Obligations.OutOfRangeSettingsTouchNoBus : Prop :=
  ∀ (s : State) (ms : List Move) (c : DrvCall),
    s.sched = .driver c :: ms → s.phase = .idle → s.drvJob = none → s.waiting = [] →
    ((∃ v, 7 < v ∧ c = .setNoiseFloor v) ∨ (∃ v, 15 < v ∧ c = .setWatchdog v) ∨ (∃ v, 15 < v ∧ c = .setSpike v) ∨
      (∃ n, n ≠ 1 ∧ n ≠ 5 ∧ n ≠ 9 ∧ n ≠ 16 ∧ c = .setMinStrikes n) ∨
      (∃ n, n ≠ 16 ∧ n ≠ 32 ∧ n ≠ 64 ∧ n ≠ 128 ∧ c = .setDivider n)) →
    step s = .next { s with sched := ms, out := s.out ++ [.driver .validationError] }

/-- R128: "setNoiseFloorLvl/setWatchdogThreshold/setSpikeRejection succeed and a subsequent status() read reflects exactly that
value", for every level in the field's range (noise floor 0 to 7, the others 0 to 15), wherever the field lies, with a
sensor that answers with what its registers hold: by a field read (20_memory.md R45), and by status(). The field must not
hold bits of the source code, which a read of the interrupt source register clears (assumption 13); status() makes eight
reads (assumption 28), and a field's bits are neighbours (assumption 30). -/
def Obligations.LevelsAreReadBack : Prop :=
  ∀ (s : State) (c : DrvCall) (f : RegField) (level : StatusSnap → Byte) (v : Nat) (ms : List Move) (rest : List BusAnswer),
    (c = .setNoiseFloor v ∧ v ≤ 7 ∧ f = fieldAt s.par.drv.noiseFloor ∧ level = StatusSnap.noiseFloor ∨
      c = .setWatchdog v ∧ v ≤ 15 ∧ f = fieldAt s.par.drv.watchdog ∧ level = StatusSnap.watchdog ∨
      c = .setSpike v ∧ v ≤ 15 ∧ f = fieldAt s.par.drv.spike ∧ level = StatusSnap.spike) →
    (f.reg = s.par.sensor.regInt → f.mask &&& (0x0F#8 <<< s.par.sensor.intShift) = 0) →
    s.sensorRegs.wf = true → s.phase = .idle → s.drvJob = none → s.waiting = [] →
    (s.sched = .driver c :: .driver (.readField f) :: ms → s.busIn = List.replicate 3 (.ok []) ++ rest →
      ∃ t, s.steps 2 = .next t ∧ t.sched = ms ∧ t.drvJob = none ∧
        t.out.getLast? = some (.driver (.byte (BitVec.ofNat 8 v)))) ∧
    (s.sched = .driver c :: .driver .status :: (List.replicate 7 .main ++ ms) →
      s.busIn = List.replicate 10 (.ok []) ++ rest →
      ∃ t snap, s.steps 9 = .next t ∧ t.sched = ms ∧ t.drvJob = none ∧
        t.out.getLast? = some (.driver (.snapshot snap)) ∧ level snap = BitVec.ofNat 8 v)

/-- R132: `status()` reads and never mutates. The snapshot is decoded from the bytes read: power state from bit 0 and mode from bits
[5:1] of the gain register, the levels, the minimum-strike count from bits [5:4], the distance-mask flag, the divider from
bits [7:6], the tuning steps and 8 pF a step (R102 to R107). No write goes out; no register of the block or of the driver
changes, and of the sensor's only the four bits of the source code, when one of the registers read is the interrupt source
register (assumption 13). How many reads
these are, and their order, is the model's choice (assumption 28), and so are the neighbouring bits of a field and the one
bit of the distance-mask flag (assumption 30). -/
def Obligations.StatusReadsAndNeverMutates : Prop :=
  ∀ (s : State) (ms : List Move) (rest : List BusAnswer) (gain nf wd sp st dm sm tu : Byte),
    let d := s.par.drv
    let steps := tu.toNat / 2 ^ d.tuning.shift.val % 16
    let regs := [d.regGain, d.noiseFloor.reg, d.watchdog.reg, d.spike.reg, d.regStatus, d.distanceMask.reg, d.regSrcMask,
      d.tuning.reg]
    s.sched = .driver .status :: (List.replicate 7 .main ++ ms) → s.phase = .idle → s.drvJob = none → s.waiting = [] →
    s.wakeAt ≤ s.now → s.busIn = [gain, nf, wd, sp, st, dm, sm, tu].map (fun b => .ok [b]) ++ rest →
    ∃ t, s.steps 8 = .next t ∧ t.sched = ms ∧ t.busIn = rest ∧ t.now = s.now ∧ t.drvJob = none ∧ t.driver = s.driver ∧
      t.phase = s.phase ∧ t.running = s.running ∧ t.recordsAs s ∧
      t.registersAfterReads s (regs.contains s.par.sensor.regInt) ∧
      t.out = s.out ++ regs.map (fun r => .busRead s.par.bus.addr r 1) ++
        [.driver (.snapshot {
          poweredDown := gain.getLsbD 0
          mode := gainMode (BitVec.ofNat 5 (gain.toNat / 2))
          noiseFloor := BitVec.ofNat 8 (nf.toNat / 2 ^ d.noiseFloor.shift.val % 8)
          watchdog := BitVec.ofNat 8 (wd.toNat / 2 ^ d.watchdog.shift.val % 16)
          spike := BitVec.ofNat 8 (sp.toNat / 2 ^ d.spike.shift.val % 16)
          minStrikes := [1, 5, 9, 16][st.toNat / 16 % 4]?
          distanceMask := dm.getLsbD d.distanceMask.shift.val
          divider := 16 * 2 ^ (sm.toNat / 64)
          tuningSteps := BitVec.ofNat 8 steps
          tuningPf := 8 * steps })]

/-- R131: clearStatistics is three readModifyWrites on the same one-bit field, writing 1, then 0, then 1; none is left out, and no
other bit of the register is written otherwise than as it was read. Which bit of which register is an open
parameter. -/
def Obligations.ClearStatisticsPulsesThreeTimes : Prop :=
  ∀ (s : State) (ms : List Move) (rest : List BusAnswer) (a b c : Byte),
    let reg := s.par.drv.clearStat.reg
    let bit := 1#8 <<< s.par.drv.clearStat.shift.val
    s.sched = .driver .clearStatistics :: .main :: .main :: ms → s.phase = .idle → s.drvJob = none → s.waiting = [] →
    s.busIn = .ok [a] :: .ok [] :: .ok [b] :: .ok [] :: .ok [c] :: .ok [] :: rest →
    ∃ t, s.steps 3 = .next t ∧ t.drvJob = none ∧ t.sched = ms ∧ t.busIn = rest ∧
      t.out = s.out ++
        [.busRead s.par.bus.addr reg 1, .busWrite s.par.bus.addr reg [a ||| bit],
         .busRead s.par.bus.addr reg 1, .busWrite s.par.bus.addr reg [b &&& ~~~bit],
         .busRead s.par.bus.addr reg 1, .busWrite s.par.bus.addr reg [c ||| bit],
         .driver .done]

/-! ### The bus transaction layer -/

/-- R42, R46 on each of the five reads, interrupt source, distance, energy LSB, MID and MSB: a transaction that fails on its first
attempts, at most RETRIES of them, and then succeeds, succeeds overall; it sleeps BACKOFF once after each failed attempt,
and every attempt reads the same register. What the byte becomes is R80's: the source code, the distance, or, with the
bytes kept from the earlier reads, the energy, which makes the Event (R122, R143). Nothing else of the block changes. A read of
the interrupt source register leaves it with `old & ~(0x0F << INT_SHIFT)`, and a read of another register leaves every
register as it was (R49, 10_state.md R28 (a); assumption 13). -/
def Obligations.RetriedReadSucceedsAfterBackoffs : Prop :=
  ∀ (s : State) (reg : RegAddr) (fails : List (Cause × Bool)) (b : Byte) (rest : List BusAnswer),
    s.readRegister = some reg → s.drvJob = none → s.busTry = 0 → s.wakeAt ≤ s.now → fails.length ≤ s.par.bus.retries →
    s.busIn = fails.map (fun f => .fail f.1 f.2) ++ .ok [b] :: rest →
    let traffic := s.out ++ List.replicate (fails.length + 1) (.busRead s.par.bus.addr reg 1)
    ∃ t, (s.undisturbed (fails.length + 1)).steps (fails.length + 1) = .next t ∧
      t.now = s.now + fails.length * s.par.bus.backoff ∧ t.busTry = 0 ∧ t.busIn = rest ∧ t.sched = s.sched ∧
      t.drvJob = none ∧ t.driver = s.driver ∧ t.running = s.running ∧ t.recordsAs s ∧
      t.registersAfterReads s (decide (reg = s.par.sensor.regInt)) ∧
      (s.phase = .sReadInt → t.phase = .sClassify ∧ t.out = traffic ∧
        t.work = { s.work with code := BitVec.ofNat 4 (b.toNat / 2 ^ s.par.sensor.intShift) }) ∧
      (s.phase = .sReadDist → t.phase = .sReadEnergy ∧ t.out = traffic ∧
        t.work = { s.work with
          dist := BitVec.ofNat 6 (b.toNat / 2 ^ s.par.sensor.distShift), energyBytes := [] }) ∧
      (s.phase = .sReadEnergy → s.work.energyBytes.length < 2 → t.phase = .sReadEnergy ∧ t.out = traffic ∧
        t.work = { s.work with energyBytes := s.work.energyBytes ++ [b] }) ∧
      (∀ l m tl, s.phase = .sReadEnergy → s.work.energyBytes = l :: m :: tl →
        let e : Event := { ts := s.work.ts, kind := .lightning, distanceKm := some s.work.dist,
                           energy := some (BitVec.ofNat 21 (b.toNat % 32 * 65536 + m.toNat * 256 + l.toNat)),
                           raw := s.work.code }
        if s.work.byHost = true then
          t.phase = .idle ∧ t.work = {} ∧ t.out = traffic ++ [.rsp .ok (.event (some e))]
        else t.phase = .sAppend ∧ t.work = { ev := some e } ∧ t.out = traffic)

/-- R42, R46, R191, R203 on each of the five reads: when all RETRIES + 1 attempts fail, exactly one BusError is raised; it
reports RETRIES + 1 attempts and the last cause; there is no sleep after the last attempt; the operation ends and every
earlier write stands: the capture stays consumed, the log and the throttle state are as they were (recordsAs of
Sys2Proof/Safety.lean). The source code is cleared if an attempt at the interrupt source register reached the sensor
(assumption 13; U3). -/
def Obligations.ExhaustedReadRaisesOneBusError : Prop :=
  ∀ (s : State) (reg : RegAddr) (fails : List (Cause × Bool)) (last : Cause) (reached : Bool) (rest : List BusAnswer),
    s.readRegister = some reg → s.drvJob = none → s.busTry = 0 → s.wakeAt ≤ s.now → fails.length = s.par.bus.retries →
    s.busIn = fails.map (fun f => .fail f.1 f.2) ++ .fail last reached :: rest →
    ∃ t, (s.undisturbed (fails.length + 1)).steps (fails.length + 1) = .next t ∧
      t.phase = .idle ∧ t.running = false ∧ t.work = {} ∧ t.busTry = 0 ∧
      t.now = s.now + s.par.bus.retries * s.par.bus.backoff ∧
      t.out = s.out ++ List.replicate (s.par.bus.retries + 1) (.busRead s.par.bus.addr reg 1) ++
        [.rsp .busError (.busFailure (s.par.bus.retries + 1) last)] ∧
      t.busIn = rest ∧ t.sched = s.sched ∧ t.drvJob = none ∧ t.driver = s.driver ∧ t.recordsAs s ∧
      t.registersAfterReads s (decide (reg = s.par.sensor.regInt) && (reached || fails.any (fun f => f.2)))

/-! ### The micro-steps of the service loop -/

/-- A step runs the decoded instruction: a word on a port, a waiting command or register setting, the source code in hand, and the byte a distance
or energy read returns are decoded and run, with the time of a sleep passed and the read accounted for
(20_memory.md R50, R56; 43_event_capture.md R143). While requests wait, a STOP is run all the same (R177; assumption 22),
and any other word, a word of the reserved command space among them (assumption 8), or call of the driver waits behind them.
That a register setting shares the main context and the queue is the model's (assumption 9), and so is that a register byte
on a driver port is the setting it encodes (assumption 18). -/
def Obligations.StepRunsTheDecodedInstruction : Prop :=
  ∀ (s : State) (ms : List Move),
    (s.sched = .irq 1 :: ms → step s = exec .edge { s with sched := ms }) ∧
    (∀ w i, s.sched = .cmd w :: ms → s.waiting = [] → decode .cmd16 w.toNat = .ok i →
      step s = exec i { s with sched := ms }) ∧
    (s.sched = .cmd 0x2000 :: ms → step s = exec .stop { s with sched := ms }) ∧
    (∀ w, s.sched = .cmd w :: ms → w ≠ 0x2000 → s.waiting ≠ [] →
      step s = .next { s with sched := ms, waiting := s.waiting ++ [.cmd w] }) ∧
    (∀ c, s.sched = .driver c :: ms → s.waiting ≠ [] →
      step s = .next { s with sched := ms, waiting := s.waiting ++ [.drv c] }) ∧
    (∀ f b i, s.sched = .driver (.field f b) :: ms → s.waiting = [] → f = .gainReg ∨ f = .statusReg ∨ f = .srcMaskReg →
      decode f b.toNat = .ok i → step s = exec i { s with sched := ms }) ∧
    (s.sched = .main :: ms → s.drvJob = none →
      let u := { s with sched := ms, now := max s.now s.wakeAt }
      (∀ w ws i, s.phase = .idle → s.waiting = .cmd w :: ws → decode .cmd16 w.toNat = .ok i →
        step s = exec i { u with waiting := ws }) ∧
      (∀ f b ws i, s.phase = .idle → s.waiting = .drv (.field f b) :: ws →
        f = .gainReg ∨ f = .statusReg ∨ f = .srcMaskReg → decode f b.toNat = .ok i →
        step s = exec i { u with waiting := ws }) ∧
      (∀ i, s.phase = .sClassify → decode .src4 s.work.code.toNat = .ok i → step s = exec i u) ∧
      (∀ b rest i, s.phase = .sReadDist → s.busIn = .ok [b] :: rest → decode .regByte b.toNat = .ok i →
        step s = exec i { (u.clearCause s.par.sensor.regDist 1) with
          busIn := rest, busTry := 0,
          out := s.out ++ [.busRead s.par.bus.addr s.par.sensor.regDist 1] }) ∧
      (∀ h m l tl rest i, s.phase = .sReadEnergy → s.work.energyBytes = l :: m :: tl → s.busIn = .ok [h] :: rest →
        decode .regByte3 (h ++ m ++ l).toNat = .ok i →
        step s = exec i { (u.clearCause s.par.sensor.regMsb 1) with
          busIn := rest, busTry := 0,
          out := s.out ++ [.busRead s.par.bus.addr s.par.sensor.regMsb 1] }))

/-- R161, R178: at S_ENTRY an unconfigured sensor raises NotInitializedError with nothing touched, PENDING among it; else DRAIN_N
is cleared and the loop begins (D19). -/
def Obligations.EntryChecksReadinessOnce : Prop :=
  ∀ (s : State) (ms : List Move), s.sched = .main :: ms → s.drvJob = none → s.phase = .sEntry →
    (s.driver = .configured → step s = .next { s with
      sched := ms, now := max s.now s.wakeAt, drainN := 0,
      phase := .sConsume, work := {} }) ∧
    (s.driver ≠ .configured → step s = .next { s with
      sched := ms, now := max s.now s.wakeAt, phase := .idle, work := {},
      running := false, busTry := 0, out := s.out ++ [.rsp .notInitialized .nothing] })

/-- R162, R164: the indivisible consume. The drain ends at the cap, with nothing pending, or with the dwell not elapsed, and then
changes nothing of DebounceState; otherwise PENDING is cleared, the capture is counted, and the read follows. The
boundary and the indivisibility are the spec's own (D5, D7, D8). -/
def Obligations.ConsumeTestsAndClearsInOneStep : Prop :=
  ∀ (s : State) (ms : List Move), s.sched = .main :: ms → s.drvJob = none → s.phase = .sConsume →
    s.par.consumeSplit = false →
    let now := max s.now s.wakeAt
    step s = .next
      (if s.drainN = s.par.drainCap ∨ s.pending = false ∨ now - s.lastEdge < s.par.tDwell then
        { s with sched := ms, now := now, phase := .sKeepalive, work := {} }
      else { s with sched := ms, now := now, pending := false, drainN := s.drainN + 1, phase := .pSleep, work := {} })

/-- 20_memory.md R54, 70_reset_and_hazards.md R249: with `CONSUME_SPLIT = true` the consume is three micro-steps. The first reads
PENDING and ends the drain when it is 0, or at the cap; the second reads LAST_EDGE and ends the drain when less than T_DWELL
has passed; the third clears PENDING whatever an edge has written since, counts the capture, and the read follows. Where
the cap is tested and where the capture is counted is the model's reading (assumption 21). -/
def Obligations.SplitConsumeIsThreeMicroSteps : Prop :=
  ∀ (s : State) (ms : List Move), s.sched = .main :: ms → s.drvJob = none → s.phase = .sConsume →
    s.par.consumeSplit = true →
    let u := { s with sched := ms, now := max s.now s.wakeAt }
    let ended := { u with phase := .sKeepalive, work := {} }
    (s.work.split = .readPending → step s = .next
      (if s.drainN = s.par.drainCap ∨ s.pending = false then ended
      else { u with work := { s.work with split := .compare } })) ∧
    (s.work.split = .compare → step s = .next
      (if u.now - s.lastEdge < s.par.tDwell then ended else { u with work := { s.work with split := .clear } })) ∧
    (s.work.split = .clear → step s = .next
      { u with pending := false, drainN := s.drainN + 1, phase := .pSleep, work := {} })

/-- R167: with an observer registered, the Event goes to it once, whatever it answers; a failure changes no register, raises nothing
and gives no warning. With none registered the step does nothing. -/
def Obligations.ObserverFailureIsDiscarded : Prop :=
  ∀ (s : State) (ms : List Move) (e : Event), s.sched = .main :: ms → s.drvJob = none → s.phase = .sObserve →
    s.work.ev = some e →
    (∀ id a rest, s.observer = some id → s.sinkIn = a :: rest →
      step s = .next { s with
        sched := ms, now := max s.now s.wakeAt, phase := .sThrottle, sinkIn := rest,
        out := s.out ++ [.observer id e] }) ∧
    (s.observer = none → step s = .next { s with sched := ms, now := max s.now s.wakeAt, phase := .sThrottle })

/-- R169, R170, R173: an Event passes the throttle when it is Lightning, or of a kind other than the last forwarded, or at least
T_THROTTLE after LAST_ACC of its kind. Then the throttle state is written, "/event" and "/state" go out in that order, and
each failure gives one warning and nothing else. Otherwise nothing is written and nothing goes out. The readings and the
order are the spec's own (D15, D16, D17). -/
def Obligations.ThrottleForwardsOrSuppresses : Prop :=
  ∀ (s : State) (ms : List Move) (e : Event) (a b : SinkAnswer) (rest : List SinkAnswer),
    s.sched = .main :: ms → s.drvJob = none → s.phase = .sThrottle → s.work.ev = some e → s.sinkIn = a :: b :: rest →
    let now := max s.now s.wakeAt
    let agg := Config.aggUpdate s.agg e
    let since := match e.kind with
      | .lightning => 0
      | .disturber => e.ts - s.lastAccDisturber
      | .noise => e.ts - s.lastAccNoise
    let warn := fun r : SinkAnswer => if r = .fail then [Output.warn] else []
    step s = .next
      (if e.kind = .lightning ∨ s.lastSrc ≠ some e.kind ∨ s.par.tThrottle ≤ since then
        { s with sched := ms, now := now, phase := .sConsume, work := {}, agg := agg, lastSrc := some e.kind,
                 lastAccDisturber := if e.kind = .disturber then e.ts else s.lastAccDisturber,
                 lastAccNoise := if e.kind = .noise then e.ts else s.lastAccNoise,
                 keepaliveTs := now, sinkIn := rest,
                 out := s.out ++
                   [.publishEvent "/event"
                     { ts := e.ts, type := e.kind, distanceKm := e.distanceKm, energy := e.energy }
                     s.par.publish.retainEvent] ++ warn a ++
                   [.publishState "/state" agg s.par.publish.retainState] ++ warn b }
      else { s with sched := ms, now := now, phase := .sConsume, work := {} })

/-- R172, R176, R161: at S_KEEPALIVE the aggregate is re-forwarded exactly when at least T_KEEPALIVE has passed since KEEPALIVE_TS, which
then becomes `now`; AGG and the throttle state are not changed; then SERVICE answers DRAIN_N, or RUN goes on to R_BETWEEN.
Boundary and placement are the spec's own (D5, D17). -/
def Obligations.KeepaliveFiresExactlyWhenDue : Prop :=
  ∀ (s : State) (ms : List Move) (a : SinkAnswer) (rest : List SinkAnswer),
    s.sched = .main :: ms → s.drvJob = none → s.phase = .sKeepalive → s.sinkIn = a :: rest →
    let now := max s.now s.wakeAt
    let due := s.par.tKeepalive ≤ now - s.keepaliveTs
    let sent := if due then
      Output.publishState "/state" s.agg s.par.publish.retainState ::
        (if a = .fail then [Output.warn] else []) else []
    step s = .next { s with
      sched := ms, now := now, work := {},
      keepaliveTs := if due then now else s.keepaliveTs,
      sinkIn := if due then rest else s.sinkIn,
      phase := if s.running = true then .rBetween else .idle,
      out := s.out ++ sent ++ (if s.running = true then [] else [.rsp .ok (.count s.drainN)]) }

/-- R176: RUN looks at the stop signal at R_BETWEEN: with STOP_REQ it is cleared, RUNNING with it, and RUN answers OK; without it
the next SERVICE begins. -/
def Obligations.RunLooksAtStopBetweenIterations : Prop :=
  ∀ (s : State) (ms : List Move), s.sched = .main :: ms → s.drvJob = none → s.phase = .rBetween →
    (s.stopReq = true → step s = .next { s with
      sched := ms, now := max s.now s.wakeAt, stopReq := false,
      running := false, phase := .idle, work := {}, out := s.out ++ [.rsp .ok .nothing] }) ∧
    (s.stopReq = false → step s = .next { s with sched := ms, now := max s.now s.wakeAt, phase := .sEntry })

/-! ### Whole operations -/

/-- R161, R164 (b) and (c): a SERVICE that finds nothing pending, or a capture whose dwell has not elapsed, and no keepalive due,
answers OK with data 0 and leaves every register of the block but DRAIN_N as it was. -/
def Obligations.ServiceWithNothingToDrain : Prop :=
  ∀ s : State, s.phase = .idle → s.drvJob = none → s.driver = .configured → s.par.consumeSplit = false →
    s.running = false → s.wakeAt ≤ s.now → (s.pending = false ∨ s.now - s.lastEdge < s.par.tDwell) →
    s.now - s.keepaliveTs < s.par.tKeepalive →
    ∃ u, exec .service s = .next u ∧
      (u.undisturbed 3).steps 3 = .next { s with drainN := 0, work := {}, out := s.out ++ [.rsp .ok (.count 0)] }

/-- R161, R166, R169, R171 (e): a whole SERVICE over one Disturber inside the throttle window. The capture is consumed, one register
is read, the Event is in the log, and it is not forwarded: AGG, LAST_SRC, LAST_ACC and KEEPALIVE_TS are as they were and
the publish sink gets nothing. -/
def Obligations.SuppressedDisturberIsLoggedOnly : Prop :=
  ∀ (s : State) (b : Byte) (rest : List BusAnswer) (x : BitVec 2),
    s.phase = .idle → s.drvJob = none → s.driver = .configured → s.par.consumeSplit = false → s.running = false →
    s.wakeAt ≤ s.now → s.pending = true → s.par.tDwell ≤ s.now - s.lastEdge → 1 ≤ s.par.drainCap →
    s.observer = none → s.busTry = 0 → s.busIn = .ok [b] :: rest →
    sourceCode s.par.sensor.intShift b = 0b01#2 ++ x →
    s.lastSrc = some .disturber → s.now - s.lastAccDisturber < s.par.tThrottle →
    s.now - s.keepaliveTs < s.par.tKeepalive →
    let e : Event := { ts := s.now, kind := .disturber, distanceKm := none, energy := none, raw := 0b01#2 ++ x }
    ∃ u, exec .service s = .next u ∧
      (u.undisturbed 10).steps 10 = .next { (s.clearCause s.par.sensor.regInt 1) with
        pending := false, drainN := 1, work := {}, busIn := rest,
        log := (if s.log.length = s.par.logCapacity then s.log.drop 1 else s.log) ++ [e],
        logWr := (s.logWr + 1) % s.par.logCapacity,
        out := s.out ++ [.busRead s.par.bus.addr s.par.sensor.regInt 1, .rsp .ok (.count 1)] }

/-- R161 to R172 over one Lightning: five reads in the order interrupt source, distance, energy LSB, MID, MSB; the Event is appended,
handed to the observer, forwarded as "/event" and "/state" in that order, and the SERVICE answers 1 (vector V4.4 with an
observer). The sensor's registers are as they were, but for the source code cleared (assumption 13). The order of the messages and the three energy reads are the spec's own (D12, D16). -/
def Obligations.LightningIsReadLoggedObservedForwarded : Prop :=
  ∀ (s : State) (b d l m h : Byte) (rest : List BusAnswer) (x : BitVec 3) (id : Arg12) (a : SinkAnswer)
    (srest : List SinkAnswer),
    s.phase = .idle → s.drvJob = none → s.driver = .configured → s.par.consumeSplit = false → s.running = false →
    s.wakeAt ≤ s.now → s.pending = true → s.par.tDwell ≤ s.now - s.lastEdge → 1 ≤ s.par.drainCap →
    0 < s.par.tKeepalive → s.busTry = 0 →
    s.busIn = .ok [b] :: .ok [d] :: .ok [l] :: .ok [m] :: .ok [h] :: rest →
    s.observer = some id → s.sinkIn = a :: .ok :: .ok :: srest →
    sourceCode s.par.sensor.intShift b = 1#1 ++ x →
    let e : Event := { ts := s.now, kind := .lightning,
                       distanceKm := some (maskDistance s.par.sensor.distShift d),
                       energy := some (assembleEnergy l m h), raw := 1#1 ++ x }
    let agg := Config.aggUpdate s.agg e
    let rd := fun r => Output.busRead s.par.bus.addr r 1
    let cleared := ((((s.clearCause s.par.sensor.regInt 1).clearCause s.par.sensor.regDist 1).clearCause
      s.par.sensor.regLsb 1).clearCause s.par.sensor.regMid 1).clearCause s.par.sensor.regMsb 1
    ∃ u, exec .service s = .next u ∧ (u.undisturbed 14).steps 14 =
      .next { s with sensorRegs := cleared.sensorRegs, pending := false, drainN := 1, work := {}, busIn := rest,
                     log := (if s.log.length = s.par.logCapacity then s.log.drop 1 else s.log) ++ [e],
                     logWr := (s.logWr + 1) % s.par.logCapacity,
                     lastSrc := some .lightning, agg := agg, keepaliveTs := s.now, sinkIn := srest,
                     out := s.out ++ [rd s.par.sensor.regInt, rd s.par.sensor.regDist, rd s.par.sensor.regLsb,
                       rd s.par.sensor.regMid, rd s.par.sensor.regMsb, .observer id e,
                       .publishEvent "/event"
                         { ts := e.ts, type := e.kind, distanceKm := e.distanceKm, energy := e.energy }
                         s.par.publish.retainEvent,
                       .publishState "/state" agg s.par.publish.retainState,
                       .rsp .ok (.count 1)] }

/-- R178, R144, R191: a BusError at the distance read of a SERVICE, with no retry left. The capture stays consumed and is lost: no
Event, no log entry, no forward; the keepalive check does not run; the SERVICE answers BUS_ERROR (program P6; D18). -/
def Obligations.BusErrorLosesTheConsumedCapture : Prop :=
  ∀ (s : State) (b : Byte) (c : Cause) (rest : List BusAnswer) (x : BitVec 3),
    s.phase = .idle → s.drvJob = none → s.driver = .configured → s.par.consumeSplit = false →
    s.wakeAt ≤ s.now → s.pending = true → s.par.tDwell ≤ s.now - s.lastEdge → 1 ≤ s.par.drainCap →
    s.busTry = 0 → s.par.bus.retries = 0 → s.busIn = .ok [b] :: .fail c false :: rest →
    sourceCode s.par.sensor.intShift b = 1#1 ++ x →
    ∃ u, exec .service s = .next u ∧
      (u.undisturbed 6).steps 6 = .next { (s.clearCause s.par.sensor.regInt 1) with
        pending := false, drainN := 1, work := {}, running := false, busIn := rest,
        out := s.out ++ [.busRead s.par.bus.addr s.par.sensor.regInt 1, .busRead s.par.bus.addr s.par.sensor.regDist 1,
          .rsp .busError (.busFailure 1 c)] }

/-- R143 to R145: a whole `READ_EVENT d` over a Disturber code. The read comes no sooner than `d` ticks after the command, the caller
gets the Event of the time of classification, and PENDING, the log, the observer and the throttle see nothing of it (D9,
D11, D14). -/
def Obligations.PolledEventGoesToTheCallerOnly : Prop :=
  ∀ (s : State) (d : Arg12) (b : Byte) (rest : List BusAnswer) (x : BitVec 2),
    s.phase = .idle → s.drvJob = none → s.driver = .configured → s.busTry = 0 → s.busIn = .ok [b] :: rest →
    sourceCode s.par.sensor.intShift b = 0b01#2 ++ x →
    ∃ u, exec (.readEvent d) s = .next u ∧
      (u.undisturbed 3).steps 3 = .next { (s.clearCause s.par.sensor.regInt 1) with
        now := s.now + d.toNat, wakeAt := s.now + d.toNat, work := {}, busIn := rest,
        out := s.out ++ [.busRead s.par.bus.addr s.par.sensor.regInt 1,
          .rsp .ok (.event (some { ts := s.now + d.toNat, kind := .disturber, distanceKm := none, energy := none,
                                   raw := 0b01#2 ++ x }))] }

/-! ### The machine as a whole -/

/-- The invariant of Sys2Proof/Safety.lean holds after every step that starts from a state with it: the register space keeps its canonical
form, the log its capacity, every stored timestamp is a past reading of `now`, every Event is as the block makes Events,
DRAIN_N stays in its range, one operation runs at a time, and nothing is pending before START (R12, R17, R18, R22,
R56). -/
def Obligations.EveryStepKeepsTheInvariant : Prop :=
  ∀ s t : State, s.Inv → step s = .next t → t.Inv

/-- The invariant holds of the state after reset. This is a property of the model's reset state, not of the spec's table alone. The
table of R30 and R230 settles what it says of LOG, LOG_WR, PENDING, DRAIN_N, RUNNING, PHASE and KEEPALIVE_TS (the values are
the spec's own, D23), but it leaves LAST_EDGE and LAST_ACC unspecified: that they lie no later than `now` rests on their 0
(assumption 4) beside a `now` of 0 (assumption 3), both the model's choices. The clauses on the values in hand, on the driver operation and
on the sensor's register space rest on `work`, `drvJob` and `sensorRegs` being empty (assumption 20). The sizes are the
defaults of 00_scope.md R3, which the reset state takes (assumption 11). -/
def Obligations.ResetHasTheInvariant : Prop := State.reset.Inv

/-- R230 and the table of R30: what reset leaves, for every register whose reset value the spec gives (the values are the spec's own,
D23). -/
def Obligations.ResetLeavesTheTableOfState : Prop :=
  let s := State.reset
  s.pending = false ∧ s.irqEn = false ∧ s.log = [] ∧ s.logWr = 0 ∧ s.logCount = 0 ∧ s.lastSrc = none ∧
  s.keepaliveTs = s.now ∧ s.agg = Config.aggInit ∧ s.observer = none ∧ s.running = false ∧ s.stopReq = false ∧
  s.phase = .idle ∧ s.drainN = 0 ∧ s.sensorReady = false

/-- R6: no state of the block is stuck: every step of every state goes on, to no fault and no refusal. -/
def Obligations.NoStateIsStuck : Prop := ∀ s : State, s.goesOn

/-- R11, R12: no step changes the parameter record, and `now` never decreases. -/
def Obligations.ParametersAreConstantAndTimeNeverDecreases : Prop :=
  ∀ s t : State, step s = .next t → t.par = s.par ∧ s.now ≤ t.now

/-- R16, R142: the access discipline on DebounceState, over every step of the machine. PENDING goes from 0 to 1, and LAST_EDGE changes,
only in an accepted edge, which sets both; PENDING goes from 1 to 0 only in the main context's consume, and with the
indivisible consume only after the dwell has elapsed. -/
def Obligations.EachDebounceFieldHasOneWriter : Prop :=
  ∀ s t : State, step s = .next t →
    ((s.pending = false ∧ t.pending = true) ∨ t.lastEdge ≠ s.lastEdge →
      s.aboutToAcceptEdge ∧ t.pending = true ∧ t.lastEdge = s.now) ∧
    (s.pending = true → t.pending = false →
      s.nextMove.1 = .main ∧ s.phase = .sConsume ∧ t.lastEdge = s.lastEdge ∧
      (s.par.consumeSplit = false → s.aboutToConsume))

/-- R14: with nothing pending, LAST_EDGE is unobservable. Two states that differ in it alone step to states that differ in it alone, and
that agree on it too once something is pending (with the indivisible consume). -/
def Obligations.LastEdgeIsUnobservableWhileNothingPends : Prop :=
  ∀ (s t : State) (x : Nat), s.pending = false → s.par.consumeSplit = false → step s = .next t →
    ∃ y : Nat, step { s with lastEdge := x } = .next { t with lastEdge := y } ∧ (t.pending = true → y = t.lastEdge)

/-- R243: no accepted edge is erased. Along every run with the indivisible consume, a pending capture stays pending until a consume whose
dwell has elapsed takes it; and the step after such a consume is the drain's read. -/
def Obligations.PendingCaptureSurvivesUntilConsumed : Prop :=
  ∀ (k : Nat) (s t : State), s.par.consumeSplit = false → s.pending = true → s.steps k = .next t →
    t.pending = true ∨
    ∃ j u v, j < k ∧ s.steps j = .next u ∧ u.aboutToConsume ∧ s.steps (j + 1) = .next v ∧
      v.pending = false ∧ v.phase = .pSleep ∧ v.work.byHost = false

/-- R249, program P5: with `CONSUME_SPLIT = true` there is a run in which an edge accepted between the compare and the clear is erased.
It begins in a state with the invariant at the first micro-step of a consume; two steps later PENDING has been read and the
dwell compared; the next step accepts an edge while the capture is still pending; the one after it clears PENDING, and the
read comes sooner than T_DWELL after the edge. -/
def Obligations.SplitConsumeCanEraseAnEdge : Prop :=
  ∃ s u w v : State, s.Inv ∧ s.par.consumeSplit = true ∧ s.phase = .sConsume ∧ s.work.split = .readPending ∧ s.pending = true ∧
    s.steps 2 = .next u ∧ u.phase = .sConsume ∧ u.work.split = .clear ∧ u.pending = true ∧ u.aboutToAcceptEdge ∧
    s.steps 3 = .next w ∧ w.pending = true ∧ w.lastEdge = u.now ∧
    s.steps 4 = .next v ∧ v.lastEdge = u.now ∧ v.pending = false ∧ v.phase = .pSleep ∧ v.now - v.lastEdge < v.par.tDwell

/-- R18, R57: only APPEND changes the log. A step leaves LOG and LOG_WR as they were, or is the main context's S_APPEND with an
Event in hand, and then drops the oldest Event at capacity, appends that Event and moves LOG_WR on by one slot. -/
def Obligations.OnlyAppendChangesTheLog : Prop :=
  ∀ s t : State, step s = .next t →
    (t.log = s.log ∧ t.logWr = s.logWr) ∨
    (s.nextMove.1 = .main ∧ s.phase = .sAppend ∧ ∃ e, s.work.ev = some e ∧
      t.log = (if s.log.length = s.par.logCapacity then s.log.drop 1 else s.log) ++ [e] ∧
      t.logWr = (s.logWr + 1) % s.par.logCapacity)

/-- R20, R21, R23, R24: only THROTTLE writes LAST_SRC, LAST_ACC and AGG, and it writes LAST_SRC with the kind of the Event in hand; only
THROTTLE and KEEPALIVE write KEEPALIVE_TS, with the present time. -/
def Obligations.OnlyForwardsChangeTheThrottleState : Prop :=
  ∀ s t : State, step s = .next t →
    (t.lastSrc = s.lastSrc ∧ t.lastAccDisturber = s.lastAccDisturber ∧ t.lastAccNoise = s.lastAccNoise ∧ t.agg = s.agg ∨
      s.nextMove.1 = .main ∧ s.phase = .sThrottle ∧
        ∃ e, s.work.ev = some e ∧ t.lastSrc = some e.kind ∧ t.agg = Config.aggUpdate s.agg e) ∧
    (t.keepaliveTs = s.keepaliveTs ∨
      s.nextMove.1 = .main ∧ (s.phase = .sThrottle ∨ s.phase = .sKeepalive) ∧ t.keepaliveTs = t.now)

/-- R15, R55, R56: while an operation is in progress no step changes IRQ_EN or OBSERVER; no step at all clears IRQ_EN (D25, D29). -/
def Obligations.SettingsAreStableDuringAnOperation : Prop :=
  ∀ s t : State, step s = .next t →
    (s.phase ≠ .idle → t.irqEn = s.irqEn ∧ t.observer = s.observer) ∧ (s.irqEn = true → t.irqEn = true)

/-- R43, R49: no operation of the block writes the sensor. While one is in progress a step puts out no bus write, and it leaves every
register as it was, unless the sensor itself changes one; only an attempt of the main context at the interrupt source
register clears anything, and only that register's source code (assumption 13). -/
def Obligations.NoOperationOfTheBlockWritesTheSensor : Prop :=
  ∀ s t : State, s.phase ≠ .idle → s.drvJob = none → step s = .next t →
    (∃ new, t.out = s.out ++ new ∧ ∀ a r bs, Output.busWrite a r bs ∉ new) ∧
    ((∀ r b, s.nextMove.1 ≠ .sensor r b) →
      ∃ cleared, t.registersAfterReads s cleared ∧
        (cleared = true → s.nextMove.1 = .main ∧ s.readRegister = some s.par.sensor.regInt))

/-- R176, R177, R203: a RUN ends only where the main context observes the stop signal at R_BETWEEN, or where an error of its SERVICE is
raised; nothing else clears RUNNING, STOP among it. -/
def Obligations.RunEndsOnlyOnStopOrError : Prop :=
  ∀ s t : State, s.phase ≠ .idle → s.running = true → step s = .next t → t.running = false →
    s.nextMove.1 = .main ∧ t.phase = .idle ∧
    ((s.phase = .rBetween ∧ s.stopReq = true ∧ t.stopReq = false ∧ t.out = s.out ++ [.rsp .ok .nothing]) ∨
      (s.phase = .sEntry ∧ s.driver ≠ .configured ∧ t.out = s.out ++ [.rsp .notInitialized .nothing]) ∨
      ((s.phase = .sReadInt ∨ s.phase = .sReadDist ∨ s.phase = .sReadEnergy) ∧
        ∃ c, t.out.getLast? = some (.rsp .busError (.busFailure (s.par.bus.retries + 1) c))))

/-! ### The RingLog -/

/-- R19, R166: the circular buffer refines the list. For every log within its capacity, with LOG_WR the slot the next append fills: Event j
of the list is slot (LOG_WR - LOG_COUNT + j) mod LOG_CAPACITY, and an append writes the Event to slot LOG_WR, moves LOG_WR on
modulo the capacity, counts up to the capacity, and keeps that form. -/
def Obligations.CircularBufferRefinesTheLog : Prop :=
  ∀ (s : State) (e : Event), 1 ≤ s.par.logCapacity → s.logOk →
    let cap := s.par.logCapacity
    let t := s.append e
    (∀ j, j < s.logCount → s.log[j]? = s.logMem[(s.logWr + cap - s.logCount + j) % cap]?) ∧
    t.logOk ∧ t.logWr = (s.logWr + 1) % cap ∧
    t.logCount = (if s.logCount < cap then s.logCount + 1 else s.logCount) ∧
    t.logMem[s.logWr]? = some e ∧
    (∀ i, i ≠ s.logWr → t.logMem[i]? = s.logMem[i]?)

/-- R18, R166, R175, the source's property: after appending any number of Events to an empty log, the log never exceeds its capacity, and
`tail(capacity)` is exactly the most recent `capacity` of them, in arrival order. -/
def Obligations.TailReturnsTheMostRecentCapacityEvents : Prop :=
  ∀ (cap : Nat) (es : List Event), 1 ≤ cap →
    let log := es.foldl (logAppend cap) []
    log.length ≤ cap ∧ tailOf cap log = es.drop (es.length - cap)
end

