-- ==== Sys2Proof/Laws/Decode.lean ====
section
/-! SUPPORT. What the decoder answers on a word that fits its port, said once for each format. -/

namespace Sys2Proof.Laws

/-- Every 16-bit word on port `cmd` decodes. -/
theorem decode_cmd (w : CmdWord) : decode .cmd16 w.toNat = .ok (decodeCmd w) := by
  have h : ¬2 ^ Format.cmd16.bits ≤ w.toNat := Nat.not_le.mpr w.isLt
  unfold decode
  rw [if_neg h]
  simp

/-- Every 4-bit source code decodes. -/
theorem decode_src (c : Code4) : decode .src4 c.toNat = .ok (decodeSrc c) := by
  have h : ¬2 ^ Format.src4.bits ≤ c.toNat := Nat.not_le.mpr c.isLt
  unfold decode
  rw [if_neg h]
  simp

/-- Every distance byte decodes. -/
theorem decode_dist (b : Byte) : decode .regByte b.toNat = .ok (.dist6 b) := by
  have h : ¬2 ^ Format.regByte.bits ≤ b.toNat := Nat.not_le.mpr b.isLt
  unfold decode
  rw [if_neg h]
  simp

/-- Every three energy bytes decode. -/
theorem decode_energy (h m l : Byte) : decode .regByte3 (h ++ m ++ l).toNat = .ok (.energy21 h m l) := by
  have hw : ¬2 ^ Format.regByte3.bits ≤ (h ++ m ++ l).toNat := Nat.not_le.mpr (h ++ m ++ l).isLt
  have e : BitVec.ofNat 24 (h ++ m ++ l).toNat = h ++ m ++ l := by simp
  have h1 : (h ++ m ++ l).extractLsb' 16 8 = h := by
    ext i hi
    simp only [BitVec.getElem_extractLsb', BitVec.getLsbD_append]
    rw [if_neg (by omega), if_neg (by omega)]
    simp [show 16 + i - 8 - 8 = i by omega, BitVec.getLsbD_eq_getElem hi]
  have h2 : (h ++ m ++ l).extractLsb' 8 8 = m := by
    ext i hi
    simp only [BitVec.getElem_extractLsb', BitVec.getLsbD_append]
    rw [if_neg (by omega), if_pos (by omega)]
    simp [show 8 + i - 8 = i by omega, BitVec.getLsbD_eq_getElem hi]
  have h3 : (h ++ m ++ l).extractLsb' 0 8 = l := by
    ext i hi
    simp only [BitVec.getElem_extractLsb', BitVec.getLsbD_append]
    rw [if_pos (by omega)]
    simp [BitVec.getLsbD_eq_getElem hi]
  unfold decode
  rw [if_neg hw, e]
  dsimp only
  rw [h1, h2, h3]

/-- The register bytes of the driver's three formats. -/
theorem decode_gain (b : Byte) : decode .gainReg b.toNat = decodeGain b := by
  have h : ¬2 ^ Format.gainReg.bits ≤ b.toNat := Nat.not_le.mpr b.isLt
  unfold decode
  rw [if_neg h]
  simp

theorem decode_status (b : Byte) : decode .statusReg b.toNat = .ok (decodeStrikes b) := by
  have h : ¬2 ^ Format.statusReg.bits ≤ b.toNat := Nat.not_le.mpr b.isLt
  unfold decode
  rw [if_neg h]
  simp

theorem decode_srcMask (b : Byte) : decode .srcMaskReg b.toNat = .ok (decodeDivider b) := by
  have h : ¬2 ^ Format.srcMaskReg.bits ≤ b.toNat := Nat.not_le.mpr b.isLt
  unfold decode
  rw [if_neg h]
  simp

end Sys2Proof.Laws
end

