-- ==== Sys2Proof/Laws/Memory.lean ====
section
/-! SUPPORT. The laws of the sensor register space: a read after a write, the frame of a write, and that every operation keeps
the canonical form. -/

namespace Sys2Proof.Laws

open Sys2Proof.Machine

/-- A register below every listed one reads as unlisted. -/
theorem read_below (m : Memory) (lo a : Nat) (h : m.wfFrom lo = true) (ha : a < lo) : m.read a = unlistedByte := by
  induction m generalizing lo with
  | nil => rfl
  | cons c m ih =>
    obtain ⟨b, v⟩ := c
    simp only [Memory.wfFrom, Bool.and_eq_true, decide_eq_true_eq] at h
    simp only [Memory.read]
    rw [if_neg (by omega)]
    exact ih (b + 1) h.2 (by omega)

/-- A write leaves every other register alone. -/
theorem read_write_other (m : Memory) (a b : Nat) (v : Byte) (h : b ≠ a) : (m.write a v).read b = m.read b := by
  induction m with
  | nil => simp only [Memory.write]; split <;> simp [Memory.read, h]
  | cons c m ih =>
    obtain ⟨d, w⟩ := c
    simp only [Memory.write]
    split
    · split <;> simp [Memory.read, h]
    · split
      · next e => subst e; split <;> simp [Memory.read, h]
      · simp only [Memory.read, ih]

/-- A read after a write to the same register gives the byte written. -/
theorem read_write_same (m : Memory) (lo a : Nat) (v : Byte) (h : m.wfFrom lo = true) : (m.write a v).read a = v := by
  induction m generalizing lo with
  | nil => simp only [Memory.write]; split <;> simp_all [Memory.read]
  | cons c m ih =>
    obtain ⟨d, w⟩ := c
    simp only [Memory.wfFrom, Bool.and_eq_true, decide_eq_true_eq] at h
    simp only [Memory.write]
    split
    · split
      · next hv =>
        simp only [Memory.read]
        rw [if_neg (by omega), read_below m (d + 1) a h.2 (by omega), hv]
      · simp [Memory.read]
    · split
      · next e =>
        subst e
        split
        · next hv => rw [read_below m (a + 1) a h.2 (by omega), hv]
        · simp [Memory.read]
      · next hne =>
        simp only [Memory.read]
        rw [if_neg (by omega)]
        exact ih (d + 1) h.2

/-- A bound below is a bound. -/
theorem wfFrom_mono (m : Memory) (lo lo' : Nat) (h : m.wfFrom lo = true) (hl : lo' ≤ lo) : m.wfFrom lo' = true := by
  cases m with
  | nil => rfl
  | cons c m =>
    obtain ⟨d, w⟩ := c
    simp only [Memory.wfFrom, Bool.and_eq_true, decide_eq_true_eq] at h ⊢
    exact ⟨⟨⟨by omega, h.1.1.2⟩, h.1.2⟩, h.2⟩

/-- A write keeps the canonical form above a bound. -/
theorem wfFrom_write (m : Memory) (lo a : Nat) (v : Byte) (h : m.wfFrom lo = true) (hl : lo ≤ a) (ha : a < 256) :
    (m.write a v).wfFrom lo = true := by
  induction m generalizing lo with
  | nil =>
    simp only [Memory.write]
    split
    · rfl
    · next hv => simp [Memory.wfFrom, hl, ha, hv]
  | cons c m ih =>
    obtain ⟨d, w⟩ := c
    have h' := h
    simp only [Memory.wfFrom, Bool.and_eq_true, decide_eq_true_eq] at h
    simp only [Memory.write]
    split
    · split
      · exact h'
      · next hlt hv =>
        simp only [Memory.wfFrom, Bool.and_eq_true, decide_eq_true_eq]
        exact ⟨⟨⟨hl, ha⟩, hv⟩, ⟨⟨⟨by omega, h.1.1.2⟩, h.1.2⟩, h.2⟩⟩
    · split
      · next e =>
        subst e
        split
        · exact wfFrom_mono m (a + 1) lo h.2 (by omega)
        · next hv =>
          simp only [Memory.wfFrom, Bool.and_eq_true, decide_eq_true_eq]
          exact ⟨⟨⟨hl, ha⟩, hv⟩, h.2⟩
      · simp only [Memory.wfFrom, Bool.and_eq_true, decide_eq_true_eq]
        exact ⟨h.1, ih (d + 1) h.2 (by omega)⟩

/-- A write of one register keeps the canonical form. -/
theorem wf_write (m : Memory) (r : RegAddr) (v : Byte) (h : m.wf = true) : (m.write r.toNat v).wf = true :=
  wfFrom_write m 0 _ v h (Nat.zero_le _) r.isLt

/-- A write of several registers keeps the canonical form. -/
theorem wf_writeBytes (m : Memory) (r : RegAddr) (bs : List Byte) (h : m.wf = true) : (m.writeBytes r bs).wf = true := by
  induction bs generalizing m r with
  | nil => exact h
  | cons b bs ih => exact ih _ _ (wf_write m r b h)

/-- A read after a write, over 8-bit addresses. -/
theorem read_write_reg (m : Memory) (r : RegAddr) (v : Byte) (h : m.wf = true) : (m.write r.toNat v).read r.toNat = v :=
  read_write_same m 0 _ v h

/-- Memory after reset has the canonical form. -/
theorem reset_memory_wf : State.reset.sensorRegs.wf = true := rfl

end Sys2Proof.Laws
end

