-- ==== Sys2Proof/Laws/State.lean ====
section
/-! SUPPORT. One lemma per field per state update, each true by rfl, so that no later proof unfolds a record update. -/

namespace Sys2Proof.Laws

open Sys2Proof.Machine

variable (s : State)

/-! ### emit -/

@[simp] theorem emit_par (o : Output) : (s.emit o).par = s.par := rfl
@[simp] theorem emit_now (o : Output) : (s.emit o).now = s.now := rfl
@[simp] theorem emit_pending (o : Output) : (s.emit o).pending = s.pending := rfl
@[simp] theorem emit_lastEdge (o : Output) : (s.emit o).lastEdge = s.lastEdge := rfl
@[simp] theorem emit_irqEn (o : Output) : (s.emit o).irqEn = s.irqEn := rfl
@[simp] theorem emit_log (o : Output) : (s.emit o).log = s.log := rfl
@[simp] theorem emit_logWr (o : Output) : (s.emit o).logWr = s.logWr := rfl
@[simp] theorem emit_lastAccDisturber (o : Output) : (s.emit o).lastAccDisturber = s.lastAccDisturber := rfl
@[simp] theorem emit_lastAccNoise (o : Output) : (s.emit o).lastAccNoise = s.lastAccNoise := rfl
@[simp] theorem emit_lastSrc (o : Output) : (s.emit o).lastSrc = s.lastSrc := rfl
@[simp] theorem emit_keepaliveTs (o : Output) : (s.emit o).keepaliveTs = s.keepaliveTs := rfl
@[simp] theorem emit_agg (o : Output) : (s.emit o).agg = s.agg := rfl
@[simp] theorem emit_observer (o : Output) : (s.emit o).observer = s.observer := rfl
@[simp] theorem emit_running (o : Output) : (s.emit o).running = s.running := rfl
@[simp] theorem emit_stopReq (o : Output) : (s.emit o).stopReq = s.stopReq := rfl
@[simp] theorem emit_phase (o : Output) : (s.emit o).phase = s.phase := rfl
@[simp] theorem emit_drainN (o : Output) : (s.emit o).drainN = s.drainN := rfl
@[simp] theorem emit_work (o : Output) : (s.emit o).work = s.work := rfl
@[simp] theorem emit_wakeAt (o : Output) : (s.emit o).wakeAt = s.wakeAt := rfl
@[simp] theorem emit_busTry (o : Output) : (s.emit o).busTry = s.busTry := rfl
@[simp] theorem emit_driver (o : Output) : (s.emit o).driver = s.driver := rfl
@[simp] theorem emit_drvJob (o : Output) : (s.emit o).drvJob = s.drvJob := rfl
@[simp] theorem emit_sensorRegs (o : Output) : (s.emit o).sensorRegs = s.sensorRegs := rfl
@[simp] theorem emit_waiting (o : Output) : (s.emit o).waiting = s.waiting := rfl
@[simp] theorem emit_sched (o : Output) : (s.emit o).sched = s.sched := rfl
@[simp] theorem emit_busIn (o : Output) : (s.emit o).busIn = s.busIn := rfl
@[simp] theorem emit_sinkIn (o : Output) : (s.emit o).sinkIn = s.sinkIn := rfl
@[simp] theorem emit_draws (o : Output) : (s.emit o).draws = s.draws := rfl
@[simp] theorem emit_out (o : Output) : (s.emit o).out = s.out ++ [o] := rfl

/-! ### respond -/

@[simp] theorem respond_par (st : Status) (d : RspData) : (s.respond st d).par = s.par := rfl
@[simp] theorem respond_now (st : Status) (d : RspData) : (s.respond st d).now = s.now := rfl
@[simp] theorem respond_pending (st : Status) (d : RspData) : (s.respond st d).pending = s.pending := rfl
@[simp] theorem respond_lastEdge (st : Status) (d : RspData) : (s.respond st d).lastEdge = s.lastEdge := rfl
@[simp] theorem respond_irqEn (st : Status) (d : RspData) : (s.respond st d).irqEn = s.irqEn := rfl
@[simp] theorem respond_log (st : Status) (d : RspData) : (s.respond st d).log = s.log := rfl
@[simp] theorem respond_logWr (st : Status) (d : RspData) : (s.respond st d).logWr = s.logWr := rfl
@[simp] theorem respond_lastAccDisturber (st : Status) (d : RspData) : (s.respond st d).lastAccDisturber = s.lastAccDisturber := rfl
@[simp] theorem respond_lastAccNoise (st : Status) (d : RspData) : (s.respond st d).lastAccNoise = s.lastAccNoise := rfl
@[simp] theorem respond_lastSrc (st : Status) (d : RspData) : (s.respond st d).lastSrc = s.lastSrc := rfl
@[simp] theorem respond_keepaliveTs (st : Status) (d : RspData) : (s.respond st d).keepaliveTs = s.keepaliveTs := rfl
@[simp] theorem respond_agg (st : Status) (d : RspData) : (s.respond st d).agg = s.agg := rfl
@[simp] theorem respond_observer (st : Status) (d : RspData) : (s.respond st d).observer = s.observer := rfl
@[simp] theorem respond_running (st : Status) (d : RspData) : (s.respond st d).running = s.running := rfl
@[simp] theorem respond_stopReq (st : Status) (d : RspData) : (s.respond st d).stopReq = s.stopReq := rfl
@[simp] theorem respond_phase (st : Status) (d : RspData) : (s.respond st d).phase = s.phase := rfl
@[simp] theorem respond_drainN (st : Status) (d : RspData) : (s.respond st d).drainN = s.drainN := rfl
@[simp] theorem respond_work (st : Status) (d : RspData) : (s.respond st d).work = s.work := rfl
@[simp] theorem respond_wakeAt (st : Status) (d : RspData) : (s.respond st d).wakeAt = s.wakeAt := rfl
@[simp] theorem respond_busTry (st : Status) (d : RspData) : (s.respond st d).busTry = s.busTry := rfl
@[simp] theorem respond_driver (st : Status) (d : RspData) : (s.respond st d).driver = s.driver := rfl
@[simp] theorem respond_drvJob (st : Status) (d : RspData) : (s.respond st d).drvJob = s.drvJob := rfl
@[simp] theorem respond_sensorRegs (st : Status) (d : RspData) : (s.respond st d).sensorRegs = s.sensorRegs := rfl
@[simp] theorem respond_waiting (st : Status) (d : RspData) : (s.respond st d).waiting = s.waiting := rfl
@[simp] theorem respond_sched (st : Status) (d : RspData) : (s.respond st d).sched = s.sched := rfl
@[simp] theorem respond_busIn (st : Status) (d : RspData) : (s.respond st d).busIn = s.busIn := rfl
@[simp] theorem respond_sinkIn (st : Status) (d : RspData) : (s.respond st d).sinkIn = s.sinkIn := rfl
@[simp] theorem respond_draws (st : Status) (d : RspData) : (s.respond st d).draws = s.draws := rfl
@[simp] theorem respond_out (st : Status) (d : RspData) : (s.respond st d).out = s.out ++ [.rsp st d] := rfl

/-! ### refuse -/

@[simp] theorem refuse_par : (s.refuse).par = s.par := rfl
@[simp] theorem refuse_now : (s.refuse).now = s.now := rfl
@[simp] theorem refuse_pending : (s.refuse).pending = s.pending := rfl
@[simp] theorem refuse_lastEdge : (s.refuse).lastEdge = s.lastEdge := rfl
@[simp] theorem refuse_irqEn : (s.refuse).irqEn = s.irqEn := rfl
@[simp] theorem refuse_log : (s.refuse).log = s.log := rfl
@[simp] theorem refuse_logWr : (s.refuse).logWr = s.logWr := rfl
@[simp] theorem refuse_lastAccDisturber : (s.refuse).lastAccDisturber = s.lastAccDisturber := rfl
@[simp] theorem refuse_lastAccNoise : (s.refuse).lastAccNoise = s.lastAccNoise := rfl
@[simp] theorem refuse_lastSrc : (s.refuse).lastSrc = s.lastSrc := rfl
@[simp] theorem refuse_keepaliveTs : (s.refuse).keepaliveTs = s.keepaliveTs := rfl
@[simp] theorem refuse_agg : (s.refuse).agg = s.agg := rfl
@[simp] theorem refuse_observer : (s.refuse).observer = s.observer := rfl
@[simp] theorem refuse_running : (s.refuse).running = s.running := rfl
@[simp] theorem refuse_stopReq : (s.refuse).stopReq = s.stopReq := rfl
@[simp] theorem refuse_phase : (s.refuse).phase = s.phase := rfl
@[simp] theorem refuse_drainN : (s.refuse).drainN = s.drainN := rfl
@[simp] theorem refuse_work : (s.refuse).work = s.work := rfl
@[simp] theorem refuse_wakeAt : (s.refuse).wakeAt = s.wakeAt := rfl
@[simp] theorem refuse_busTry : (s.refuse).busTry = s.busTry := rfl
@[simp] theorem refuse_driver : (s.refuse).driver = s.driver := rfl
@[simp] theorem refuse_drvJob : (s.refuse).drvJob = s.drvJob := rfl
@[simp] theorem refuse_sensorRegs : (s.refuse).sensorRegs = s.sensorRegs := rfl
@[simp] theorem refuse_waiting : (s.refuse).waiting = s.waiting := rfl
@[simp] theorem refuse_sched : (s.refuse).sched = s.sched := rfl
@[simp] theorem refuse_busIn : (s.refuse).busIn = s.busIn := rfl
@[simp] theorem refuse_sinkIn : (s.refuse).sinkIn = s.sinkIn := rfl
@[simp] theorem refuse_draws : (s.refuse).draws = s.draws := rfl
@[simp] theorem refuse_out : (s.refuse).out = s.out ++ [.rsp .refused .nothing] := rfl

/-! ### sleep -/

@[simp] theorem sleep_par (d : Nat) : (s.sleep d).par = s.par := rfl
@[simp] theorem sleep_now (d : Nat) : (s.sleep d).now = s.now := rfl
@[simp] theorem sleep_pending (d : Nat) : (s.sleep d).pending = s.pending := rfl
@[simp] theorem sleep_lastEdge (d : Nat) : (s.sleep d).lastEdge = s.lastEdge := rfl
@[simp] theorem sleep_irqEn (d : Nat) : (s.sleep d).irqEn = s.irqEn := rfl
@[simp] theorem sleep_log (d : Nat) : (s.sleep d).log = s.log := rfl
@[simp] theorem sleep_logWr (d : Nat) : (s.sleep d).logWr = s.logWr := rfl
@[simp] theorem sleep_lastAccDisturber (d : Nat) : (s.sleep d).lastAccDisturber = s.lastAccDisturber := rfl
@[simp] theorem sleep_lastAccNoise (d : Nat) : (s.sleep d).lastAccNoise = s.lastAccNoise := rfl
@[simp] theorem sleep_lastSrc (d : Nat) : (s.sleep d).lastSrc = s.lastSrc := rfl
@[simp] theorem sleep_keepaliveTs (d : Nat) : (s.sleep d).keepaliveTs = s.keepaliveTs := rfl
@[simp] theorem sleep_agg (d : Nat) : (s.sleep d).agg = s.agg := rfl
@[simp] theorem sleep_observer (d : Nat) : (s.sleep d).observer = s.observer := rfl
@[simp] theorem sleep_running (d : Nat) : (s.sleep d).running = s.running := rfl
@[simp] theorem sleep_stopReq (d : Nat) : (s.sleep d).stopReq = s.stopReq := rfl
@[simp] theorem sleep_phase (d : Nat) : (s.sleep d).phase = s.phase := rfl
@[simp] theorem sleep_drainN (d : Nat) : (s.sleep d).drainN = s.drainN := rfl
@[simp] theorem sleep_work (d : Nat) : (s.sleep d).work = s.work := rfl
@[simp] theorem sleep_wakeAt (d : Nat) : (s.sleep d).wakeAt = s.now + d := rfl
@[simp] theorem sleep_busTry (d : Nat) : (s.sleep d).busTry = s.busTry := rfl
@[simp] theorem sleep_driver (d : Nat) : (s.sleep d).driver = s.driver := rfl
@[simp] theorem sleep_drvJob (d : Nat) : (s.sleep d).drvJob = s.drvJob := rfl
@[simp] theorem sleep_sensorRegs (d : Nat) : (s.sleep d).sensorRegs = s.sensorRegs := rfl
@[simp] theorem sleep_waiting (d : Nat) : (s.sleep d).waiting = s.waiting := rfl
@[simp] theorem sleep_sched (d : Nat) : (s.sleep d).sched = s.sched := rfl
@[simp] theorem sleep_busIn (d : Nat) : (s.sleep d).busIn = s.busIn := rfl
@[simp] theorem sleep_sinkIn (d : Nat) : (s.sleep d).sinkIn = s.sinkIn := rfl
@[simp] theorem sleep_draws (d : Nat) : (s.sleep d).draws = s.draws := rfl
@[simp] theorem sleep_out (d : Nat) : (s.sleep d).out = s.out := rfl

/-! ### wake -/

@[simp] theorem wake_par : (s.wake).par = s.par := rfl
@[simp] theorem wake_now : (s.wake).now = max s.now s.wakeAt := rfl
@[simp] theorem wake_pending : (s.wake).pending = s.pending := rfl
@[simp] theorem wake_lastEdge : (s.wake).lastEdge = s.lastEdge := rfl
@[simp] theorem wake_irqEn : (s.wake).irqEn = s.irqEn := rfl
@[simp] theorem wake_log : (s.wake).log = s.log := rfl
@[simp] theorem wake_logWr : (s.wake).logWr = s.logWr := rfl
@[simp] theorem wake_lastAccDisturber : (s.wake).lastAccDisturber = s.lastAccDisturber := rfl
@[simp] theorem wake_lastAccNoise : (s.wake).lastAccNoise = s.lastAccNoise := rfl
@[simp] theorem wake_lastSrc : (s.wake).lastSrc = s.lastSrc := rfl
@[simp] theorem wake_keepaliveTs : (s.wake).keepaliveTs = s.keepaliveTs := rfl
@[simp] theorem wake_agg : (s.wake).agg = s.agg := rfl
@[simp] theorem wake_observer : (s.wake).observer = s.observer := rfl
@[simp] theorem wake_running : (s.wake).running = s.running := rfl
@[simp] theorem wake_stopReq : (s.wake).stopReq = s.stopReq := rfl
@[simp] theorem wake_phase : (s.wake).phase = s.phase := rfl
@[simp] theorem wake_drainN : (s.wake).drainN = s.drainN := rfl
@[simp] theorem wake_work : (s.wake).work = s.work := rfl
@[simp] theorem wake_wakeAt : (s.wake).wakeAt = s.wakeAt := rfl
@[simp] theorem wake_busTry : (s.wake).busTry = s.busTry := rfl
@[simp] theorem wake_driver : (s.wake).driver = s.driver := rfl
@[simp] theorem wake_drvJob : (s.wake).drvJob = s.drvJob := rfl
@[simp] theorem wake_sensorRegs : (s.wake).sensorRegs = s.sensorRegs := rfl
@[simp] theorem wake_waiting : (s.wake).waiting = s.waiting := rfl
@[simp] theorem wake_sched : (s.wake).sched = s.sched := rfl
@[simp] theorem wake_busIn : (s.wake).busIn = s.busIn := rfl
@[simp] theorem wake_sinkIn : (s.wake).sinkIn = s.sinkIn := rfl
@[simp] theorem wake_draws : (s.wake).draws = s.draws := rfl
@[simp] theorem wake_out : (s.wake).out = s.out := rfl

/-! ### wait -/

@[simp] theorem wait_par (r : Request) : (s.wait r).par = s.par := rfl
@[simp] theorem wait_now (r : Request) : (s.wait r).now = s.now := rfl
@[simp] theorem wait_pending (r : Request) : (s.wait r).pending = s.pending := rfl
@[simp] theorem wait_lastEdge (r : Request) : (s.wait r).lastEdge = s.lastEdge := rfl
@[simp] theorem wait_irqEn (r : Request) : (s.wait r).irqEn = s.irqEn := rfl
@[simp] theorem wait_log (r : Request) : (s.wait r).log = s.log := rfl
@[simp] theorem wait_logWr (r : Request) : (s.wait r).logWr = s.logWr := rfl
@[simp] theorem wait_lastAccDisturber (r : Request) : (s.wait r).lastAccDisturber = s.lastAccDisturber := rfl
@[simp] theorem wait_lastAccNoise (r : Request) : (s.wait r).lastAccNoise = s.lastAccNoise := rfl
@[simp] theorem wait_lastSrc (r : Request) : (s.wait r).lastSrc = s.lastSrc := rfl
@[simp] theorem wait_keepaliveTs (r : Request) : (s.wait r).keepaliveTs = s.keepaliveTs := rfl
@[simp] theorem wait_agg (r : Request) : (s.wait r).agg = s.agg := rfl
@[simp] theorem wait_observer (r : Request) : (s.wait r).observer = s.observer := rfl
@[simp] theorem wait_running (r : Request) : (s.wait r).running = s.running := rfl
@[simp] theorem wait_stopReq (r : Request) : (s.wait r).stopReq = s.stopReq := rfl
@[simp] theorem wait_phase (r : Request) : (s.wait r).phase = s.phase := rfl
@[simp] theorem wait_drainN (r : Request) : (s.wait r).drainN = s.drainN := rfl
@[simp] theorem wait_work (r : Request) : (s.wait r).work = s.work := rfl
@[simp] theorem wait_wakeAt (r : Request) : (s.wait r).wakeAt = s.wakeAt := rfl
@[simp] theorem wait_busTry (r : Request) : (s.wait r).busTry = s.busTry := rfl
@[simp] theorem wait_driver (r : Request) : (s.wait r).driver = s.driver := rfl
@[simp] theorem wait_drvJob (r : Request) : (s.wait r).drvJob = s.drvJob := rfl
@[simp] theorem wait_sensorRegs (r : Request) : (s.wait r).sensorRegs = s.sensorRegs := rfl
@[simp] theorem wait_waiting (r : Request) : (s.wait r).waiting = s.waiting ++ [r] := rfl
@[simp] theorem wait_sched (r : Request) : (s.wait r).sched = s.sched := rfl
@[simp] theorem wait_busIn (r : Request) : (s.wait r).busIn = s.busIn := rfl
@[simp] theorem wait_sinkIn (r : Request) : (s.wait r).sinkIn = s.sinkIn := rfl
@[simp] theorem wait_draws (r : Request) : (s.wait r).draws = s.draws := rfl
@[simp] theorem wait_out (r : Request) : (s.wait r).out = s.out := rfl

/-! ### endOp -/

@[simp] theorem endOp_par : (s.endOp).par = s.par := rfl
@[simp] theorem endOp_now : (s.endOp).now = s.now := rfl
@[simp] theorem endOp_pending : (s.endOp).pending = s.pending := rfl
@[simp] theorem endOp_lastEdge : (s.endOp).lastEdge = s.lastEdge := rfl
@[simp] theorem endOp_irqEn : (s.endOp).irqEn = s.irqEn := rfl
@[simp] theorem endOp_log : (s.endOp).log = s.log := rfl
@[simp] theorem endOp_logWr : (s.endOp).logWr = s.logWr := rfl
@[simp] theorem endOp_lastAccDisturber : (s.endOp).lastAccDisturber = s.lastAccDisturber := rfl
@[simp] theorem endOp_lastAccNoise : (s.endOp).lastAccNoise = s.lastAccNoise := rfl
@[simp] theorem endOp_lastSrc : (s.endOp).lastSrc = s.lastSrc := rfl
@[simp] theorem endOp_keepaliveTs : (s.endOp).keepaliveTs = s.keepaliveTs := rfl
@[simp] theorem endOp_agg : (s.endOp).agg = s.agg := rfl
@[simp] theorem endOp_observer : (s.endOp).observer = s.observer := rfl
@[simp] theorem endOp_running : (s.endOp).running = s.running := rfl
@[simp] theorem endOp_stopReq : (s.endOp).stopReq = s.stopReq := rfl
@[simp] theorem endOp_phase : (s.endOp).phase = .idle := rfl
@[simp] theorem endOp_drainN : (s.endOp).drainN = s.drainN := rfl
@[simp] theorem endOp_work : (s.endOp).work = {} := rfl
@[simp] theorem endOp_wakeAt : (s.endOp).wakeAt = s.wakeAt := rfl
@[simp] theorem endOp_busTry : (s.endOp).busTry = s.busTry := rfl
@[simp] theorem endOp_driver : (s.endOp).driver = s.driver := rfl
@[simp] theorem endOp_drvJob : (s.endOp).drvJob = s.drvJob := rfl
@[simp] theorem endOp_sensorRegs : (s.endOp).sensorRegs = s.sensorRegs := rfl
@[simp] theorem endOp_waiting : (s.endOp).waiting = s.waiting := rfl
@[simp] theorem endOp_sched : (s.endOp).sched = s.sched := rfl
@[simp] theorem endOp_busIn : (s.endOp).busIn = s.busIn := rfl
@[simp] theorem endOp_sinkIn : (s.endOp).sinkIn = s.sinkIn := rfl
@[simp] theorem endOp_draws : (s.endOp).draws = s.draws := rfl
@[simp] theorem endOp_out : (s.endOp).out = s.out := rfl

/-! ### raise -/

@[simp] theorem raise_par (st : Status) (d : RspData) : (s.raise st d).par = s.par := rfl
@[simp] theorem raise_now (st : Status) (d : RspData) : (s.raise st d).now = s.now := rfl
@[simp] theorem raise_pending (st : Status) (d : RspData) : (s.raise st d).pending = s.pending := rfl
@[simp] theorem raise_lastEdge (st : Status) (d : RspData) : (s.raise st d).lastEdge = s.lastEdge := rfl
@[simp] theorem raise_irqEn (st : Status) (d : RspData) : (s.raise st d).irqEn = s.irqEn := rfl
@[simp] theorem raise_log (st : Status) (d : RspData) : (s.raise st d).log = s.log := rfl
@[simp] theorem raise_logWr (st : Status) (d : RspData) : (s.raise st d).logWr = s.logWr := rfl
@[simp] theorem raise_lastAccDisturber (st : Status) (d : RspData) : (s.raise st d).lastAccDisturber = s.lastAccDisturber := rfl
@[simp] theorem raise_lastAccNoise (st : Status) (d : RspData) : (s.raise st d).lastAccNoise = s.lastAccNoise := rfl
@[simp] theorem raise_lastSrc (st : Status) (d : RspData) : (s.raise st d).lastSrc = s.lastSrc := rfl
@[simp] theorem raise_keepaliveTs (st : Status) (d : RspData) : (s.raise st d).keepaliveTs = s.keepaliveTs := rfl
@[simp] theorem raise_agg (st : Status) (d : RspData) : (s.raise st d).agg = s.agg := rfl
@[simp] theorem raise_observer (st : Status) (d : RspData) : (s.raise st d).observer = s.observer := rfl
@[simp] theorem raise_running (st : Status) (d : RspData) : (s.raise st d).running = false := rfl
@[simp] theorem raise_stopReq (st : Status) (d : RspData) : (s.raise st d).stopReq = s.stopReq := rfl
@[simp] theorem raise_phase (st : Status) (d : RspData) : (s.raise st d).phase = .idle := rfl
@[simp] theorem raise_drainN (st : Status) (d : RspData) : (s.raise st d).drainN = s.drainN := rfl
@[simp] theorem raise_work (st : Status) (d : RspData) : (s.raise st d).work = {} := rfl
@[simp] theorem raise_wakeAt (st : Status) (d : RspData) : (s.raise st d).wakeAt = s.wakeAt := rfl
@[simp] theorem raise_busTry (st : Status) (d : RspData) : (s.raise st d).busTry = 0 := rfl
@[simp] theorem raise_driver (st : Status) (d : RspData) : (s.raise st d).driver = s.driver := rfl
@[simp] theorem raise_drvJob (st : Status) (d : RspData) : (s.raise st d).drvJob = s.drvJob := rfl
@[simp] theorem raise_sensorRegs (st : Status) (d : RspData) : (s.raise st d).sensorRegs = s.sensorRegs := rfl
@[simp] theorem raise_waiting (st : Status) (d : RspData) : (s.raise st d).waiting = s.waiting := rfl
@[simp] theorem raise_sched (st : Status) (d : RspData) : (s.raise st d).sched = s.sched := rfl
@[simp] theorem raise_busIn (st : Status) (d : RspData) : (s.raise st d).busIn = s.busIn := rfl
@[simp] theorem raise_sinkIn (st : Status) (d : RspData) : (s.raise st d).sinkIn = s.sinkIn := rfl
@[simp] theorem raise_draws (st : Status) (d : RspData) : (s.raise st d).draws = s.draws := rfl
@[simp] theorem raise_out (st : Status) (d : RspData) : (s.raise st d).out = s.out ++ [.rsp st d] := rfl

/-! ### txDone -/

@[simp] theorem txDone_par : (s.txDone).par = s.par := rfl
@[simp] theorem txDone_now : (s.txDone).now = s.now := rfl
@[simp] theorem txDone_pending : (s.txDone).pending = s.pending := rfl
@[simp] theorem txDone_lastEdge : (s.txDone).lastEdge = s.lastEdge := rfl
@[simp] theorem txDone_irqEn : (s.txDone).irqEn = s.irqEn := rfl
@[simp] theorem txDone_log : (s.txDone).log = s.log := rfl
@[simp] theorem txDone_logWr : (s.txDone).logWr = s.logWr := rfl
@[simp] theorem txDone_lastAccDisturber : (s.txDone).lastAccDisturber = s.lastAccDisturber := rfl
@[simp] theorem txDone_lastAccNoise : (s.txDone).lastAccNoise = s.lastAccNoise := rfl
@[simp] theorem txDone_lastSrc : (s.txDone).lastSrc = s.lastSrc := rfl
@[simp] theorem txDone_keepaliveTs : (s.txDone).keepaliveTs = s.keepaliveTs := rfl
@[simp] theorem txDone_agg : (s.txDone).agg = s.agg := rfl
@[simp] theorem txDone_observer : (s.txDone).observer = s.observer := rfl
@[simp] theorem txDone_running : (s.txDone).running = s.running := rfl
@[simp] theorem txDone_stopReq : (s.txDone).stopReq = s.stopReq := rfl
@[simp] theorem txDone_phase : (s.txDone).phase = s.phase := rfl
@[simp] theorem txDone_drainN : (s.txDone).drainN = s.drainN := rfl
@[simp] theorem txDone_work : (s.txDone).work = s.work := rfl
@[simp] theorem txDone_wakeAt : (s.txDone).wakeAt = s.wakeAt := rfl
@[simp] theorem txDone_busTry : (s.txDone).busTry = 0 := rfl
@[simp] theorem txDone_driver : (s.txDone).driver = s.driver := rfl
@[simp] theorem txDone_drvJob : (s.txDone).drvJob = s.drvJob := rfl
@[simp] theorem txDone_sensorRegs : (s.txDone).sensorRegs = s.sensorRegs := rfl
@[simp] theorem txDone_waiting : (s.txDone).waiting = s.waiting := rfl
@[simp] theorem txDone_sched : (s.txDone).sched = s.sched := rfl
@[simp] theorem txDone_busIn : (s.txDone).busIn = s.busIn := rfl
@[simp] theorem txDone_sinkIn : (s.txDone).sinkIn = s.sinkIn := rfl
@[simp] theorem txDone_draws : (s.txDone).draws = s.draws := rfl
@[simp] theorem txDone_out : (s.txDone).out = s.out := rfl

/-! ### clearCause -/

@[simp] theorem clearCause_par (r : RegAddr) (n : Nat) : (s.clearCause r n).par = s.par := rfl
@[simp] theorem clearCause_now (r : RegAddr) (n : Nat) : (s.clearCause r n).now = s.now := rfl
@[simp] theorem clearCause_pending (r : RegAddr) (n : Nat) : (s.clearCause r n).pending = s.pending := rfl
@[simp] theorem clearCause_lastEdge (r : RegAddr) (n : Nat) : (s.clearCause r n).lastEdge = s.lastEdge := rfl
@[simp] theorem clearCause_irqEn (r : RegAddr) (n : Nat) : (s.clearCause r n).irqEn = s.irqEn := rfl
@[simp] theorem clearCause_log (r : RegAddr) (n : Nat) : (s.clearCause r n).log = s.log := rfl
@[simp] theorem clearCause_logWr (r : RegAddr) (n : Nat) : (s.clearCause r n).logWr = s.logWr := rfl
@[simp] theorem clearCause_lastAccDisturber (r : RegAddr) (n : Nat) : (s.clearCause r n).lastAccDisturber = s.lastAccDisturber := rfl
@[simp] theorem clearCause_lastAccNoise (r : RegAddr) (n : Nat) : (s.clearCause r n).lastAccNoise = s.lastAccNoise := rfl
@[simp] theorem clearCause_lastSrc (r : RegAddr) (n : Nat) : (s.clearCause r n).lastSrc = s.lastSrc := rfl
@[simp] theorem clearCause_keepaliveTs (r : RegAddr) (n : Nat) : (s.clearCause r n).keepaliveTs = s.keepaliveTs := rfl
@[simp] theorem clearCause_agg (r : RegAddr) (n : Nat) : (s.clearCause r n).agg = s.agg := rfl
@[simp] theorem clearCause_observer (r : RegAddr) (n : Nat) : (s.clearCause r n).observer = s.observer := rfl
@[simp] theorem clearCause_running (r : RegAddr) (n : Nat) : (s.clearCause r n).running = s.running := rfl
@[simp] theorem clearCause_stopReq (r : RegAddr) (n : Nat) : (s.clearCause r n).stopReq = s.stopReq := rfl
@[simp] theorem clearCause_phase (r : RegAddr) (n : Nat) : (s.clearCause r n).phase = s.phase := rfl
@[simp] theorem clearCause_drainN (r : RegAddr) (n : Nat) : (s.clearCause r n).drainN = s.drainN := rfl
@[simp] theorem clearCause_work (r : RegAddr) (n : Nat) : (s.clearCause r n).work = s.work := rfl
@[simp] theorem clearCause_wakeAt (r : RegAddr) (n : Nat) : (s.clearCause r n).wakeAt = s.wakeAt := rfl
@[simp] theorem clearCause_busTry (r : RegAddr) (n : Nat) : (s.clearCause r n).busTry = s.busTry := rfl
@[simp] theorem clearCause_driver (r : RegAddr) (n : Nat) : (s.clearCause r n).driver = s.driver := rfl
@[simp] theorem clearCause_drvJob (r : RegAddr) (n : Nat) : (s.clearCause r n).drvJob = s.drvJob := rfl
@[simp] theorem clearCause_waiting (r : RegAddr) (n : Nat) : (s.clearCause r n).waiting = s.waiting := rfl
@[simp] theorem clearCause_sched (r : RegAddr) (n : Nat) : (s.clearCause r n).sched = s.sched := rfl
@[simp] theorem clearCause_busIn (r : RegAddr) (n : Nat) : (s.clearCause r n).busIn = s.busIn := rfl
@[simp] theorem clearCause_sinkIn (r : RegAddr) (n : Nat) : (s.clearCause r n).sinkIn = s.sinkIn := rfl
@[simp] theorem clearCause_draws (r : RegAddr) (n : Nat) : (s.clearCause r n).draws = s.draws := rfl
@[simp] theorem clearCause_out (r : RegAddr) (n : Nat) : (s.clearCause r n).out = s.out := rfl

/-! ### append -/

@[simp] theorem append_par (e : Event) : (s.append e).par = s.par := rfl
@[simp] theorem append_now (e : Event) : (s.append e).now = s.now := rfl
@[simp] theorem append_pending (e : Event) : (s.append e).pending = s.pending := rfl
@[simp] theorem append_lastEdge (e : Event) : (s.append e).lastEdge = s.lastEdge := rfl
@[simp] theorem append_irqEn (e : Event) : (s.append e).irqEn = s.irqEn := rfl
@[simp] theorem append_log (e : Event) : (s.append e).log = logAppend s.par.logCapacity s.log e := rfl
@[simp] theorem append_logWr (e : Event) : (s.append e).logWr = (s.logWr + 1) % s.par.logCapacity := rfl
@[simp] theorem append_lastAccDisturber (e : Event) : (s.append e).lastAccDisturber = s.lastAccDisturber := rfl
@[simp] theorem append_lastAccNoise (e : Event) : (s.append e).lastAccNoise = s.lastAccNoise := rfl
@[simp] theorem append_lastSrc (e : Event) : (s.append e).lastSrc = s.lastSrc := rfl
@[simp] theorem append_keepaliveTs (e : Event) : (s.append e).keepaliveTs = s.keepaliveTs := rfl
@[simp] theorem append_agg (e : Event) : (s.append e).agg = s.agg := rfl
@[simp] theorem append_observer (e : Event) : (s.append e).observer = s.observer := rfl
@[simp] theorem append_running (e : Event) : (s.append e).running = s.running := rfl
@[simp] theorem append_stopReq (e : Event) : (s.append e).stopReq = s.stopReq := rfl
@[simp] theorem append_phase (e : Event) : (s.append e).phase = s.phase := rfl
@[simp] theorem append_drainN (e : Event) : (s.append e).drainN = s.drainN := rfl
@[simp] theorem append_work (e : Event) : (s.append e).work = s.work := rfl
@[simp] theorem append_wakeAt (e : Event) : (s.append e).wakeAt = s.wakeAt := rfl
@[simp] theorem append_busTry (e : Event) : (s.append e).busTry = s.busTry := rfl
@[simp] theorem append_driver (e : Event) : (s.append e).driver = s.driver := rfl
@[simp] theorem append_drvJob (e : Event) : (s.append e).drvJob = s.drvJob := rfl
@[simp] theorem append_sensorRegs (e : Event) : (s.append e).sensorRegs = s.sensorRegs := rfl
@[simp] theorem append_waiting (e : Event) : (s.append e).waiting = s.waiting := rfl
@[simp] theorem append_sched (e : Event) : (s.append e).sched = s.sched := rfl
@[simp] theorem append_busIn (e : Event) : (s.append e).busIn = s.busIn := rfl
@[simp] theorem append_sinkIn (e : Event) : (s.append e).sinkIn = s.sinkIn := rfl
@[simp] theorem append_draws (e : Event) : (s.append e).draws = s.draws := rfl
@[simp] theorem append_out (e : Event) : (s.append e).out = s.out := rfl

/-! ### markForwarded -/

@[simp] theorem markForwarded_par (e : Event) : (s.markForwarded e).par = s.par := rfl
@[simp] theorem markForwarded_now (e : Event) : (s.markForwarded e).now = s.now := rfl
@[simp] theorem markForwarded_pending (e : Event) : (s.markForwarded e).pending = s.pending := rfl
@[simp] theorem markForwarded_lastEdge (e : Event) : (s.markForwarded e).lastEdge = s.lastEdge := rfl
@[simp] theorem markForwarded_irqEn (e : Event) : (s.markForwarded e).irqEn = s.irqEn := rfl
@[simp] theorem markForwarded_log (e : Event) : (s.markForwarded e).log = s.log := rfl
@[simp] theorem markForwarded_logWr (e : Event) : (s.markForwarded e).logWr = s.logWr := rfl
@[simp] theorem markForwarded_lastSrc (e : Event) : (s.markForwarded e).lastSrc = some e.kind := rfl
@[simp] theorem markForwarded_keepaliveTs (e : Event) : (s.markForwarded e).keepaliveTs = s.now := rfl
@[simp] theorem markForwarded_agg (e : Event) : (s.markForwarded e).agg = Config.aggUpdate s.agg e := rfl
@[simp] theorem markForwarded_observer (e : Event) : (s.markForwarded e).observer = s.observer := rfl
@[simp] theorem markForwarded_running (e : Event) : (s.markForwarded e).running = s.running := rfl
@[simp] theorem markForwarded_stopReq (e : Event) : (s.markForwarded e).stopReq = s.stopReq := rfl
@[simp] theorem markForwarded_phase (e : Event) : (s.markForwarded e).phase = s.phase := rfl
@[simp] theorem markForwarded_drainN (e : Event) : (s.markForwarded e).drainN = s.drainN := rfl
@[simp] theorem markForwarded_work (e : Event) : (s.markForwarded e).work = s.work := rfl
@[simp] theorem markForwarded_wakeAt (e : Event) : (s.markForwarded e).wakeAt = s.wakeAt := rfl
@[simp] theorem markForwarded_busTry (e : Event) : (s.markForwarded e).busTry = s.busTry := rfl
@[simp] theorem markForwarded_driver (e : Event) : (s.markForwarded e).driver = s.driver := rfl
@[simp] theorem markForwarded_drvJob (e : Event) : (s.markForwarded e).drvJob = s.drvJob := rfl
@[simp] theorem markForwarded_sensorRegs (e : Event) : (s.markForwarded e).sensorRegs = s.sensorRegs := rfl
@[simp] theorem markForwarded_waiting (e : Event) : (s.markForwarded e).waiting = s.waiting := rfl
@[simp] theorem markForwarded_sched (e : Event) : (s.markForwarded e).sched = s.sched := rfl
@[simp] theorem markForwarded_busIn (e : Event) : (s.markForwarded e).busIn = s.busIn := rfl
@[simp] theorem markForwarded_sinkIn (e : Event) : (s.markForwarded e).sinkIn = s.sinkIn := rfl
@[simp] theorem markForwarded_draws (e : Event) : (s.markForwarded e).draws = s.draws := rfl
@[simp] theorem markForwarded_out (e : Event) : (s.markForwarded e).out = s.out := rfl

/-! ### startRead -/

@[simp] theorem startRead_par : (s.startRead).par = s.par := rfl
@[simp] theorem startRead_now : (s.startRead).now = s.now := rfl
@[simp] theorem startRead_pending : (s.startRead).pending = s.pending := rfl
@[simp] theorem startRead_lastEdge : (s.startRead).lastEdge = s.lastEdge := rfl
@[simp] theorem startRead_irqEn : (s.startRead).irqEn = s.irqEn := rfl
@[simp] theorem startRead_log : (s.startRead).log = s.log := rfl
@[simp] theorem startRead_logWr : (s.startRead).logWr = s.logWr := rfl
@[simp] theorem startRead_lastAccDisturber : (s.startRead).lastAccDisturber = s.lastAccDisturber := rfl
@[simp] theorem startRead_lastAccNoise : (s.startRead).lastAccNoise = s.lastAccNoise := rfl
@[simp] theorem startRead_lastSrc : (s.startRead).lastSrc = s.lastSrc := rfl
@[simp] theorem startRead_keepaliveTs : (s.startRead).keepaliveTs = s.keepaliveTs := rfl
@[simp] theorem startRead_agg : (s.startRead).agg = s.agg := rfl
@[simp] theorem startRead_observer : (s.startRead).observer = s.observer := rfl
@[simp] theorem startRead_running : (s.startRead).running = s.running := rfl
@[simp] theorem startRead_stopReq : (s.startRead).stopReq = s.stopReq := rfl
@[simp] theorem startRead_phase : (s.startRead).phase = .pSleep := rfl
@[simp] theorem startRead_drainN : (s.startRead).drainN = s.drainN := rfl
@[simp] theorem startRead_work : (s.startRead).work = {} := rfl
@[simp] theorem startRead_wakeAt : (s.startRead).wakeAt = s.wakeAt := rfl
@[simp] theorem startRead_busTry : (s.startRead).busTry = s.busTry := rfl
@[simp] theorem startRead_driver : (s.startRead).driver = s.driver := rfl
@[simp] theorem startRead_drvJob : (s.startRead).drvJob = s.drvJob := rfl
@[simp] theorem startRead_sensorRegs : (s.startRead).sensorRegs = s.sensorRegs := rfl
@[simp] theorem startRead_waiting : (s.startRead).waiting = s.waiting := rfl
@[simp] theorem startRead_sched : (s.startRead).sched = s.sched := rfl
@[simp] theorem startRead_busIn : (s.startRead).busIn = s.busIn := rfl
@[simp] theorem startRead_sinkIn : (s.startRead).sinkIn = s.sinkIn := rfl
@[simp] theorem startRead_draws : (s.startRead).draws = s.draws := rfl
@[simp] theorem startRead_out : (s.startRead).out = s.out := rfl

/-! ### exitDrain -/

@[simp] theorem exitDrain_par : (s.exitDrain).par = s.par := rfl
@[simp] theorem exitDrain_now : (s.exitDrain).now = s.now := rfl
@[simp] theorem exitDrain_pending : (s.exitDrain).pending = s.pending := rfl
@[simp] theorem exitDrain_lastEdge : (s.exitDrain).lastEdge = s.lastEdge := rfl
@[simp] theorem exitDrain_irqEn : (s.exitDrain).irqEn = s.irqEn := rfl
@[simp] theorem exitDrain_log : (s.exitDrain).log = s.log := rfl
@[simp] theorem exitDrain_logWr : (s.exitDrain).logWr = s.logWr := rfl
@[simp] theorem exitDrain_lastAccDisturber : (s.exitDrain).lastAccDisturber = s.lastAccDisturber := rfl
@[simp] theorem exitDrain_lastAccNoise : (s.exitDrain).lastAccNoise = s.lastAccNoise := rfl
@[simp] theorem exitDrain_lastSrc : (s.exitDrain).lastSrc = s.lastSrc := rfl
@[simp] theorem exitDrain_keepaliveTs : (s.exitDrain).keepaliveTs = s.keepaliveTs := rfl
@[simp] theorem exitDrain_agg : (s.exitDrain).agg = s.agg := rfl
@[simp] theorem exitDrain_observer : (s.exitDrain).observer = s.observer := rfl
@[simp] theorem exitDrain_running : (s.exitDrain).running = s.running := rfl
@[simp] theorem exitDrain_stopReq : (s.exitDrain).stopReq = s.stopReq := rfl
@[simp] theorem exitDrain_phase : (s.exitDrain).phase = .sKeepalive := rfl
@[simp] theorem exitDrain_drainN : (s.exitDrain).drainN = s.drainN := rfl
@[simp] theorem exitDrain_work : (s.exitDrain).work = {} := rfl
@[simp] theorem exitDrain_wakeAt : (s.exitDrain).wakeAt = s.wakeAt := rfl
@[simp] theorem exitDrain_busTry : (s.exitDrain).busTry = s.busTry := rfl
@[simp] theorem exitDrain_driver : (s.exitDrain).driver = s.driver := rfl
@[simp] theorem exitDrain_drvJob : (s.exitDrain).drvJob = s.drvJob := rfl
@[simp] theorem exitDrain_sensorRegs : (s.exitDrain).sensorRegs = s.sensorRegs := rfl
@[simp] theorem exitDrain_waiting : (s.exitDrain).waiting = s.waiting := rfl
@[simp] theorem exitDrain_sched : (s.exitDrain).sched = s.sched := rfl
@[simp] theorem exitDrain_busIn : (s.exitDrain).busIn = s.busIn := rfl
@[simp] theorem exitDrain_sinkIn : (s.exitDrain).sinkIn = s.sinkIn := rfl
@[simp] theorem exitDrain_draws : (s.exitDrain).draws = s.draws := rfl
@[simp] theorem exitDrain_out : (s.exitDrain).out = s.out := rfl

/-! ### consumed -/

@[simp] theorem consumed_par : (s.consumed).par = s.par := rfl
@[simp] theorem consumed_now : (s.consumed).now = s.now := rfl
@[simp] theorem consumed_pending : (s.consumed).pending = s.pending := rfl
@[simp] theorem consumed_lastEdge : (s.consumed).lastEdge = s.lastEdge := rfl
@[simp] theorem consumed_irqEn : (s.consumed).irqEn = s.irqEn := rfl
@[simp] theorem consumed_log : (s.consumed).log = s.log := rfl
@[simp] theorem consumed_logWr : (s.consumed).logWr = s.logWr := rfl
@[simp] theorem consumed_lastAccDisturber : (s.consumed).lastAccDisturber = s.lastAccDisturber := rfl
@[simp] theorem consumed_lastAccNoise : (s.consumed).lastAccNoise = s.lastAccNoise := rfl
@[simp] theorem consumed_lastSrc : (s.consumed).lastSrc = s.lastSrc := rfl
@[simp] theorem consumed_keepaliveTs : (s.consumed).keepaliveTs = s.keepaliveTs := rfl
@[simp] theorem consumed_agg : (s.consumed).agg = s.agg := rfl
@[simp] theorem consumed_observer : (s.consumed).observer = s.observer := rfl
@[simp] theorem consumed_running : (s.consumed).running = s.running := rfl
@[simp] theorem consumed_stopReq : (s.consumed).stopReq = s.stopReq := rfl
@[simp] theorem consumed_phase : (s.consumed).phase = .pSleep := rfl
@[simp] theorem consumed_drainN : (s.consumed).drainN = s.drainN + 1 := rfl
@[simp] theorem consumed_work : (s.consumed).work = {} := rfl
@[simp] theorem consumed_wakeAt : (s.consumed).wakeAt = s.wakeAt := rfl
@[simp] theorem consumed_busTry : (s.consumed).busTry = s.busTry := rfl
@[simp] theorem consumed_driver : (s.consumed).driver = s.driver := rfl
@[simp] theorem consumed_drvJob : (s.consumed).drvJob = s.drvJob := rfl
@[simp] theorem consumed_sensorRegs : (s.consumed).sensorRegs = s.sensorRegs := rfl
@[simp] theorem consumed_waiting : (s.consumed).waiting = s.waiting := rfl
@[simp] theorem consumed_sched : (s.consumed).sched = s.sched := rfl
@[simp] theorem consumed_busIn : (s.consumed).busIn = s.busIn := rfl
@[simp] theorem consumed_sinkIn : (s.consumed).sinkIn = s.sinkIn := rfl
@[simp] theorem consumed_draws : (s.consumed).draws = s.draws := rfl
@[simp] theorem consumed_out : (s.consumed).out = s.out := rfl

end Sys2Proof.Laws
end

