-- ==== Sys2Proof/Laws/Ops.lean ====
section
/-! SUPPORT. What each shared operation can do, said once: the frames of the environment's answers and of the bus layer, and the
case lemmas of the transaction layer, the consume, the throttle, the keepalive and the classified Event. -/

namespace Sys2Proof.Laws

open Sys2Proof.Machine

/-- Only what an answer of the environment may change differs: the answers to come, the draws, the outputs, the sensor's
registers, and the transaction in progress. Every register of the block and of the driver is the same. -/
structure SameBlock (s t : State) : Prop where
  par : t.par = s.par
  now : t.now = s.now
  pending : t.pending = s.pending
  lastEdge : t.lastEdge = s.lastEdge
  irqEn : t.irqEn = s.irqEn
  log : t.log = s.log
  logWr : t.logWr = s.logWr
  lastAccDisturber : t.lastAccDisturber = s.lastAccDisturber
  lastAccNoise : t.lastAccNoise = s.lastAccNoise
  lastSrc : t.lastSrc = s.lastSrc
  keepaliveTs : t.keepaliveTs = s.keepaliveTs
  agg : t.agg = s.agg
  observer : t.observer = s.observer
  running : t.running = s.running
  stopReq : t.stopReq = s.stopReq
  phase : t.phase = s.phase
  drainN : t.drainN = s.drainN
  work : t.work = s.work
  driver : t.driver = s.driver
  drvJob : t.drvJob = s.drvJob
  waiting : t.waiting = s.waiting
  sched : t.sched = s.sched

theorem SameBlock.refl (s : State) : SameBlock s s := by constructor <;> rfl

theorem SameBlock.trans {s t u : State} (h : SameBlock s t) (k : SameBlock t u) : SameBlock s u := by
  cases h; cases k; constructor <;> simp_all

theorem emit_same (s : State) (o : Output) : SameBlock s (s.emit o) := by constructor <;> rfl

theorem drawBus_same (s : State) : SameBlock s s.drawBus.2 := by
  unfold State.drawBus; split <;> (constructor <;> rfl)

theorem drawSink_same (s : State) : SameBlock s s.drawSink.2 := by
  unfold State.drawSink; split <;> (constructor <;> rfl)

theorem drawBus_regs (s : State) : s.drawBus.2.sensorRegs = s.sensorRegs := by
  unfold State.drawBus; split <;> rfl

theorem drawSink_regs (s : State) : s.drawSink.2.sensorRegs = s.sensorRegs := by
  unfold State.drawSink; split <;> rfl

theorem drawBus_cons (s : State) (a : BusAnswer) (rest : List BusAnswer) (h : s.busIn = a :: rest) :
    s.drawBus = (a, { s with busIn := rest }) := by simp [State.drawBus, h]

theorem drawSink_cons (s : State) (a : SinkAnswer) (rest : List SinkAnswer) (h : s.sinkIn = a :: rest) :
    s.drawSink = (a, { s with sinkIn := rest }) := by simp [State.drawSink, h]

theorem clearCause_same (s : State) (r : RegAddr) (n : Nat) : SameBlock s (s.clearCause r n) := by constructor <;> rfl

theorem clearCause_wf (s : State) (r : RegAddr) (n : Nat) (h : s.sensorRegs.wf = true) :
    (s.clearCause r n).sensorRegs.wf = true := by
  simp only [State.clearCause]
  split
  · exact wf_write _ _ _ h
  · exact h

theorem busReadOnce_same (s : State) (r : RegAddr) (n : Nat) : SameBlock s (s.busReadOnce r n).2 := by
  have h := (emit_same s (.busRead s.par.bus.addr r n)).trans (drawBus_same _)
  unfold State.busReadOnce
  split
  · next heq => rw [heq] at h; exact h.trans (clearCause_same _ _ _)
  · next heq =>
    rw [heq] at h
    simp only
    split
    · exact h.trans (clearCause_same _ _ _)
    · exact h

theorem busReadOnce_wf (s : State) (r : RegAddr) (n : Nat) (h : s.sensorRegs.wf = true) :
    (s.busReadOnce r n).2.sensorRegs.wf = true := by
  have hd := drawBus_regs (s.emit (.busRead s.par.bus.addr r n))
  unfold State.busReadOnce
  split
  · next heq => rw [heq] at hd; exact clearCause_wf _ _ _ (by rw [show _ = s.sensorRegs from hd]; exact h)
  · next heq =>
    rw [heq] at hd
    simp only
    split
    · exact clearCause_wf _ _ _ (by rw [show _ = s.sensorRegs from hd]; exact h)
    · rw [show _ = s.sensorRegs from hd]; exact h

theorem busWriteOnce_same (s : State) (r : RegAddr) (bs : List Byte) : SameBlock s (s.busWriteOnce r bs).2 := by
  have h := (emit_same s (.busWrite s.par.bus.addr r bs)).trans (drawBus_same _)
  unfold State.busWriteOnce
  split
  · next heq => rw [heq] at h; exact h.trans (by constructor <;> rfl)
  · next heq =>
    rw [heq] at h
    simp only
    split
    · exact h.trans (by constructor <;> rfl)
    · exact h

theorem busWriteOnce_wf (s : State) (r : RegAddr) (bs : List Byte) (h : s.sensorRegs.wf = true) :
    (s.busWriteOnce r bs).2.sensorRegs.wf = true := by
  have hd := drawBus_regs (s.emit (.busWrite s.par.bus.addr r bs))
  unfold State.busWriteOnce
  split
  · next heq => rw [heq] at hd; exact wf_writeBytes _ _ _ (by rw [show _ = s.sensorRegs from hd]; exact h)
  · next heq =>
    rw [heq] at hd
    simp only
    split
    · exact wf_writeBytes _ _ _ (by rw [show _ = s.sensorRegs from hd]; exact h)
    · rw [show _ = s.sensorRegs from hd]; exact h

theorem txDone_same (s : State) : SameBlock s s.txDone := by constructor <;> rfl

theorem txFail_same {α : Type} (s : State) (c : Cause) : SameBlock s (s.txFail (α := α) c).2 := by
  unfold State.txFail; split <;> (constructor <;> rfl)

@[simp] theorem txFail_regs {α : Type} (s : State) (c : Cause) : (s.txFail (α := α) c).2.sensorRegs = s.sensorRegs := by
  unfold State.txFail; split <;> rfl

/-- A failed attempt never completes the transaction. -/
theorem txFail_not_done {α : Type} (s s' : State) (c : Cause) (v : α) : s.txFail c ≠ (.done v, s') := by
  unfold State.txFail; split <;> simp

/-- One attempt of a read changes no register of the block. -/
theorem memRead_same (s : State) (r : RegAddr) (n : Nat) : SameBlock s (s.memRead r n).2 := by
  have h := busReadOnce_same s r n
  unfold State.memRead
  split
  · next heq => rw [heq] at h; exact h.trans (txDone_same _)
  · next heq => rw [heq] at h; exact h.trans (txFail_same _ _)

theorem memRead_wf (s : State) (r : RegAddr) (n : Nat) (h : s.sensorRegs.wf = true) :
    (s.memRead r n).2.sensorRegs.wf = true := by
  have h' := busReadOnce_wf s r n h
  unfold State.memRead
  split
  · next heq => rw [heq] at h'; simpa using h'
  · next heq => rw [heq] at h'; simpa using h'

/-- A read whose next answer is a success is done at once. -/
theorem memRead_ok (s : State) (r : RegAddr) (n : Nat) (g : List Byte) (rest : List BusAnswer)
    (h : s.busIn = .ok g :: rest) :
    s.memRead r n = (.done (s.answerBytes r n g),
      { (s.clearCause r n) with busIn := rest, busTry := 0, out := s.out ++ [.busRead s.par.bus.addr r n] }) := by
  unfold State.memRead State.busReadOnce
  rw [drawBus_cons (s.emit _) (.ok g) rest (by simpa using h)]
  rfl

/-- A read attempt whose next answer is a success obtains the bytes, and clears the latched code where it read that register. -/
theorem busReadOnce_ok (s : State) (r : RegAddr) (n : Nat) (g : List Byte) (rest : List BusAnswer)
    (h : s.busIn = .ok g :: rest) :
    s.busReadOnce r n = (.ok (s.answerBytes r n g),
      { (s.clearCause r n) with busIn := rest, out := s.out ++ [.busRead s.par.bus.addr r n] }) := by
  unfold State.busReadOnce
  rw [drawBus_cons (s.emit _) (.ok g) rest (by simpa using h)]
  rfl

/-- A write attempt whose next answer is a success stores the bytes. -/
theorem busWriteOnce_ok (s : State) (r : RegAddr) (bs g : List Byte) (rest : List BusAnswer)
    (h : s.busIn = .ok g :: rest) :
    s.busWriteOnce r bs = (.ok (),
      { s with busIn := rest, sensorRegs := s.sensorRegs.writeBytes r bs,
               out := s.out ++ [.busWrite s.par.bus.addr r bs] }) := by
  unfold State.busWriteOnce
  rw [drawBus_cons (s.emit _) (.ok g) rest (by simpa using h)]
  rfl

/-- A read attempt that fails: whether it reached the sensor decides whether the latched code is cleared, and the transaction goes
on to BACKOFF or to the BusError. -/
theorem memRead_fail (s : State) (r : RegAddr) (n : Nat) (c : Cause) (reached : Bool) (rest : List BusAnswer)
    (h : s.busIn = .fail c reached :: rest) :
    s.memRead r n =
      let u : State := { s with busIn := rest, out := s.out ++ [.busRead s.par.bus.addr r n] }
      (if reached then u.clearCause r n else u).txFail c := by
  unfold State.memRead State.busReadOnce
  rw [drawBus_cons (s.emit _) _ rest (by simpa using h)]
  rfl

/-- A readModifyWrite whose next two answers are successes stores the field in the byte read and is done at once. -/
theorem readModifyWrite_ok (s : State) (f : RegField) (v : Byte) (g g' : List Byte) (rest : List BusAnswer)
    (h : s.busIn = .ok g :: .ok g' :: rest) :
    s.readModifyWrite f v =
      let after := f.set ((s.answerBytes f.reg 1 g).headD 0) v
      (.done after,
        { (s.clearCause f.reg 1) with
          busIn := rest, busTry := 0, sensorRegs := (s.clearCause f.reg 1).sensorRegs.write f.reg.toNat after,
          out := s.out ++ [.busRead s.par.bus.addr f.reg 1, .busWrite s.par.bus.addr f.reg [after]] }) := by
  unfold State.readModifyWrite
  rw [busReadOnce_ok s f.reg 1 g _ h]
  simp only
  rw [busWriteOnce_ok _ _ _ g' rest rfl]
  simp [State.txDone, Memory.writeBytes, State.clearCause]

/-- A read of one register obtains the byte the answer gives, else what the register holds. -/
theorem answerBytes_one (s : State) (r : RegAddr) (g : List Byte) :
    s.answerBytes r 1 g = [g.getD 0 (s.sensorRegs.read r.toNat)] := by
  simp [State.answerBytes, List.range_succ, Nat.mod_eq_of_lt r.isLt]

/-- Clearing the latched code changes no register but the one that was read. -/
theorem clearCause_read (s : State) (r : RegAddr) (a : Nat) (h : a ≠ r.toNat) :
    (s.clearCause r 1).sensorRegs.read a = s.sensorRegs.read a := by
  simp only [State.clearCause]
  split
  · next hc =>
    have hz : s.par.sensor.regInt - r = 0 := BitVec.eq_of_toNat_eq (by simpa using hc)
    rw [sub_eq_zero.mp hz]
    exact read_write_other _ _ _ _ h
  · rfl

/-- A read of another register than the interrupt source register clears nothing. -/
theorem clearCause_other (s : State) (r : RegAddr) (h : r ≠ s.par.sensor.regInt) : s.clearCause r 1 = s := by
  simp only [State.clearCause]
  rw [if_neg]
  intro hc
  have hz : s.par.sensor.regInt - r = 0 := BitVec.eq_of_toNat_eq (by simpa using hc)
  exact h (sub_eq_zero.mp hz).symm

@[simp] theorem fieldAt_reg {room : Nat} (pos : FieldPos room) : (fieldAt pos).reg = pos.reg := rfl
@[simp] theorem fieldAt_shift {room : Nat} (pos : FieldPos room) : (fieldAt pos).shift = pos.shift.val := rfl

/-- A value of the field's width fits: stored and read again, it is itself, wherever the field lies. -/
theorem fieldAt_get_set {room : Nat} (pos : FieldPos room) (r v : Byte) (h : v.toNat < 2 ^ (8 - room)) :
    (fieldAt pos).get ((fieldAt pos).set r v) = v := by
  have hv : ∀ i, 8 - room ≤ i → v.getLsbD i = false := fun i hi =>
    Nat.testBit_lt_two_pow (Nat.lt_of_lt_of_le h (Nat.pow_le_pow_right (by decide) hi))
  have ones : ∀ j, (0xFF#8).getLsbD j = decide (j < 8) := by
    intro j
    by_cases hj : j < 8
    · have : ∀ j < 8, (0xFF#8).getLsbD j = true := by decide
      simp [this j hj, hj]
    · simp [BitVec.getLsbD_of_ge _ _ (Nat.not_lt.mp hj), hj]
  have hs := pos.shift.isLt
  apply BitVec.eq_of_getLsbD_eq
  intro i hi
  simp only [RegField.get, RegField.set, fieldAt, BitVec.getLsbD_ushiftRight, BitVec.getLsbD_and, BitVec.getLsbD_or,
    BitVec.getLsbD_not, BitVec.getLsbD_shiftLeft, ones, Nat.add_sub_cancel_left]
  by_cases hw : i < 8 - room
  · have inByte : decide (pos.shift.val + i < 8) = true := decide_eq_true (by omega)
    have inField : decide (room + i < 8) = true := decide_eq_true (by omega)
    simp [inByte, inField]
  · have outside : decide (room + i < 8) = false := decide_eq_false (by omega)
    simp [hv i (by omega), outside]

/-- One attempt of a write changes no register of the block. -/
theorem memWrite_same (s : State) (r : RegAddr) (bs : List Byte) : SameBlock s (s.memWrite r bs).2 := by
  have h := busWriteOnce_same s r bs
  unfold State.memWrite
  split
  · next heq => rw [heq] at h; exact h.trans (txDone_same _)
  · next heq => rw [heq] at h; exact h.trans (txFail_same _ _)

theorem memWrite_wf (s : State) (r : RegAddr) (bs : List Byte) (h : s.sensorRegs.wf = true) :
    (s.memWrite r bs).2.sensorRegs.wf = true := by
  have h' := busWriteOnce_wf s r bs h
  unfold State.memWrite
  split
  · next heq => rw [heq] at h'; simpa using h'
  · next heq => rw [heq] at h'; simpa using h'

/-- One attempt of a readModifyWrite changes no register of the block. -/
theorem readModifyWrite_same (s : State) (f : RegField) (v : Byte) : SameBlock s (s.readModifyWrite f v).2 := by
  have h := busReadOnce_same s f.reg 1
  unfold State.readModifyWrite
  split
  · next heq => rw [heq] at h; exact h.trans (txFail_same _ _)
  · next bs s' heq =>
    rw [heq] at h
    have h2 := busWriteOnce_same s' f.reg [f.set (bs.headD 0) v]
    simp only
    split
    · next heq2 => rw [heq2] at h2; exact (h.trans h2).trans (txDone_same _)
    · next heq2 => rw [heq2] at h2; exact (h.trans h2).trans (txFail_same _ _)

theorem readModifyWrite_wf (s : State) (f : RegField) (v : Byte) (h : s.sensorRegs.wf = true) :
    (s.readModifyWrite f v).2.sensorRegs.wf = true := by
  have h1 := busReadOnce_wf s f.reg 1 h
  unfold State.readModifyWrite
  split
  · next heq => rw [heq] at h1; simpa using h1
  · next bs s' heq =>
    rw [heq] at h1
    have h2 := busWriteOnce_wf s' f.reg [f.set (bs.headD 0) v] h1
    simp only
    split
    · next heq2 => rw [heq2] at h2; simpa using h2
    · next heq2 => rw [heq2] at h2; simpa using h2

/-- What a failed attempt comes to: another attempt after BACKOFF, or the BusError. -/
theorem txFail_cases {α : Type} (s : State) (c : Cause) :
    (s.busTry < s.par.bus.retries ∧
      s.txFail (α := α) c = (.retry, { s.sleep s.par.bus.backoff with busTry := s.busTry + 1 })) ∨
    (s.par.bus.retries ≤ s.busTry ∧
      s.txFail (α := α) c = (.error (s.par.bus.retries + 1) c, { s with busTry := 0 })) := by
  unfold State.txFail
  split
  · next h => exact .inl ⟨h, rfl⟩
  · next h => exact .inr ⟨by omega, rfl⟩

/-- Publishing changes no register of the block. -/
theorem emitPublish_same (s : State) (o : Output) : SameBlock s (s.emitPublish o) := by
  have h := (emit_same s o).trans (drawSink_same _)
  unfold State.emitPublish
  split
  · next heq => rw [heq] at h; exact h
  · next heq => rw [heq] at h; exact h.trans (emit_same _ _)

theorem emitPublish_regs (s : State) (o : Output) : (s.emitPublish o).sensorRegs = s.sensorRegs := by
  have h := drawSink_regs (s.emit o)
  unfold State.emitPublish
  split
  · next heq => rw [heq] at h; simpa using h
  · next heq => rw [heq] at h; simpa using h

/-- The observer changes no register of the block. -/
theorem observe_same (s : State) (e : Event) : SameBlock s (s.observe e) := by
  unfold State.observe
  split
  · exact (emit_same s _).trans (drawSink_same _)
  · exact SameBlock.refl s

theorem observe_regs (s : State) (e : Event) : (s.observe e).sensorRegs = s.sensorRegs := by
  unfold State.observe State.emitObserver
  split
  · rw [drawSink_regs]; rfl
  · rfl

/-- Forwarding changes no register of the block beyond those the throttle has already written. -/
theorem forward_same (s : State) (e : Event) : SameBlock s (s.forward e) :=
  (emitPublish_same s _).trans (emitPublish_same _ _)

theorem forward_regs (s : State) (e : Event) : (s.forward e).sensorRegs = s.sensorRegs := by
  simp [State.forward, emitPublish_regs]

/-- The throttle either forwards, and then writes exactly what a forward writes, or does nothing. -/
theorem throttle_cases (s : State) (e : Event) :
    (s.throttlePass e = true ∧ SameBlock (s.markForwarded e) (s.throttle e)) ∨
    (s.throttlePass e = false ∧ s.throttle e = s) := by
  unfold State.throttle
  split
  · next h => exact .inl ⟨h, forward_same _ _⟩
  · next h => exact .inr ⟨by simpa using h, rfl⟩

theorem throttle_regs (s : State) (e : Event) : (s.throttle e).sensorRegs = s.sensorRegs := by
  unfold State.throttle
  split
  · rw [forward_regs]; rfl
  · rfl

/-- The keepalive either re-forwards the aggregate and restarts the interval, or does nothing. -/
theorem keepalive_cases (s : State) :
    (s.keepaliveDue = true ∧ s.keepalive = { s.emitPublish s.stateMessage with keepaliveTs := s.now }) ∨
    (s.keepaliveDue = false ∧ s.keepalive = s) := by
  unfold State.keepalive
  split
  · next h => exact .inl ⟨h, rfl⟩
  · next h => exact .inr ⟨by simpa using h, rfl⟩

/-- The consume either clears a capture whose dwell has elapsed, or changes nothing. -/
theorem consume_cases (s : State) :
    (s.pending = true ∧ s.par.tDwell ≤ s.now - s.lastEdge ∧ s.consume = (true, { s with pending := false })) ∨
    ((s.pending = false ∨ s.now - s.lastEdge < s.par.tDwell) ∧ s.consume = (false, s)) := by
  unfold State.consume State.dwellElapsed
  split
  · next h => simp only [Bool.and_eq_true, decide_eq_true_eq] at h; exact .inl ⟨h.1, h.2, rfl⟩
  · next h =>
    simp only [Bool.and_eq_true, decide_eq_true_eq, not_and, not_le] at h
    refine .inr ⟨?_, rfl⟩
    cases hp : s.pending
    · exact .inl rfl
    · exact .inr (h hp)

/-- A classified Event goes to the host that asked for it, or to the drain. -/
theorem returnEvent_cases (s : State) (ev : Option Event) :
    (s.work.byHost = true ∧ s.returnEvent ev = s.endOp.respond .ok (.event ev)) ∨
    (s.work.byHost = false ∧ ∃ e, ev = some e ∧ s.returnEvent ev = { s with phase := .sAppend, work := { ev := some e } }) ∨
    (s.work.byHost = false ∧ ev = none ∧ s.returnEvent ev = { s with phase := .sConsume, work := {} }) := by
  unfold State.returnEvent
  split
  · next h => exact .inl ⟨h, rfl⟩
  · next h =>
    have hb : s.work.byHost = false := by simpa using h
    cases ev with
    | none => exact .inr (.inr ⟨hb, rfl, rfl⟩)
    | some e => exact .inr (.inl ⟨hb, e, rfl, rfl⟩)

/-- The log after an append is never longer than its capacity. -/
theorem logAppend_length (cap : Nat) (log : List Event) (e : Event) (hc : 1 ≤ cap) (h : log.length ≤ cap) :
    (logAppend cap log e).length ≤ cap := by
  unfold logAppend
  split
  · simp only [List.length_append, List.length_drop, List.length_singleton]; omega
  · simp only [List.length_append, List.length_singleton]; omega

end Sys2Proof.Laws
end

