-- ==== Sys2Proof/Laws/Step.lean ====
section
/-! SUPPORT. What one step of each move is, said once: the provers cite these instead of unfolding the step. -/

namespace Sys2Proof.Laws

open Sys2Proof.Machine

/-- A scheduled main move is the main context's micro-step, after its sleep. -/
theorem step_main (s : State) (ms : List Move) (h : s.sched = .main :: ms) :
    step s = ({ s with sched := ms }).wake.microStep := by
  simp [step, State.stepMove, State.nextMove, h, State.move]

/-- A scheduled strobe of the interrupt line is the edge row. -/
theorem step_irq (s : State) (ms : List Move) (h : s.sched = .irq 1 :: ms) :
    step s = exec .edge { s with sched := ms } := by
  simp [step, State.stepMove, State.nextMove, h, State.move, runWord, decode, Format.bits]

/-- A scheduled passage of time. -/
theorem step_advance (s : State) (ms : List Move) (d : Nat) (h : s.sched = .advance d :: ms) :
    step s = .next { s with sched := ms, now := s.now + d } := by
  simp [step, State.stepMove, State.nextMove, h, State.move]

/-- A scheduled driver call, with no request ahead of it. -/
theorem step_driver (s : State) (ms : List Move) (c : DrvCall) (h : s.sched = .driver c :: ms) (hw : s.waiting = []) :
    step s = ({ s with sched := ms }).startCall c := by
  simp [step, State.stepMove, State.nextMove, h, State.move, State.callArrives, hw]

/-- A scheduled command word, with no request ahead of it. -/
theorem step_cmd (s : State) (ms : List Move) (w : CmdWord) (h : s.sched = .cmd w :: ms) (hw : s.waiting = []) :
    step s = exec (decodeCmd w) { s with sched := ms } := by
  simp [step, State.stepMove, State.nextMove, h, State.move, State.cmdArrives, hw]

/-- No step at all. -/
theorem steps_zero (s : State) : s.steps 0 = .next s := rfl

/-- One step, then the others. -/
theorem steps_succ (s t : State) (k : Nat) (h : step s = .next t) : s.steps (k + 1) = t.steps k := by
  simp only [State.steps, Host.Core.run, Sys2Proof.core, h]

/-- A run is a run of its first part and then of its second. -/
theorem steps_add (s t : State) (j k : Nat) (h : s.steps j = .next t) : s.steps (j + k) = t.steps k := by
  induction j generalizing s with
  | zero => cases h; rw [Nat.zero_add]
  | succ j ih =>
    rw [Nat.succ_add]
    simp only [State.steps, Host.Core.run, Sys2Proof.core] at h ⊢
    split at h
    · next u hs => exact ih u h
    · cases h
    · cases h

/-- Every instruction, in every state, has a next state. -/
theorem exec_next (i : Instr) (s : State) : ∃ t, exec i s = .next t := by cases i <;> exact ⟨_, rfl⟩

/-- Running a word has a next state. -/
theorem runWord_next (f : Format) (w : Nat) (s : State) : ∃ t, runWord f w s = .next t := by
  unfold runWord
  split
  · exact exec_next _ _
  · exact ⟨_, rfl⟩

/-- A driver call has a next state. -/
theorem startCall_next (s : State) (c : DrvCall) : ∃ t, s.startCall c = .next t := by
  unfold State.startCall
  split
  · split
    · exact exec_next _ _
    · exact ⟨_, rfl⟩
  all_goals exact ⟨_, rfl⟩

/-- One step of a driver operation whose next step is a readModifyWrite that the sensor answers. -/
theorem drvStep_rmw (s : State) (c : DrvCall) (f : RegField) (v : Byte) (todo : List DrvOp) (got g g' : List Byte)
    (rest : List BusAnswer) (h : s.busIn = .ok g :: .ok g' :: rest) :
    s.drvStep { call := c, todo := .rmw f v :: todo, got := got } =
      let after := f.set (g.getD 0 (s.sensorRegs.read f.reg.toNat)) v
      State.drvAdvance
        { (s.clearCause f.reg 1) with
          busIn := rest, busTry := 0, sensorRegs := (s.clearCause f.reg 1).sensorRegs.write f.reg.toNat after,
          out := s.out ++ [.busRead s.par.bus.addr f.reg 1, .busWrite s.par.bus.addr f.reg [after]] }
        { call := c, todo := .rmw f v :: todo, got := got } todo [after] := by
  simp only [State.drvStep]
  rw [readModifyWrite_ok s f v g g' rest h]
  simp [answerBytes_one]

/-- One step of a driver operation whose next step is a read that the sensor answers. -/
theorem drvStep_read (s : State) (c : DrvCall) (r : RegAddr) (todo : List DrvOp) (got g : List Byte)
    (rest : List BusAnswer) (h : s.busIn = .ok g :: rest) :
    s.drvStep { call := c, todo := .read r :: todo, got := got } =
      State.drvAdvance
        { (s.clearCause r 1) with busIn := rest, busTry := 0, out := s.out ++ [.busRead s.par.bus.addr r 1] }
        { call := c, todo := .read r :: todo, got := got } todo [g.getD 0 (s.sensorRegs.read r.toNat)] := by
  simp only [State.drvStep]
  rw [memRead_ok s r 1 g rest h]
  simp [answerBytes_one]

/-- Registers that are the same read as they did. -/
theorem registersAfterReads_of_eq {s t : State} (h : t.sensorRegs = s.sensorRegs) : t.registersAfterReads s false := by
  refine ⟨fun a _ => by rw [h], fun _ a => by rw [h], fun hw => ⟨by rw [h]; exact hw, by simp⟩⟩

/-- What one read that reaches the sensor does to its registers. -/
theorem clearCause_registers (s : State) (r : RegAddr) :
    (s.clearCause r 1).registersAfterReads s (decide (r = s.par.sensor.regInt)) := by
  by_cases h : r = s.par.sensor.regInt
  · refine ⟨fun a ha => clearCause_read s r a (h ▸ ha), by simp [h], fun hw => ⟨clearCause_wf s r 1 hw, fun _ => ?_⟩⟩
    have hz : (s.par.sensor.regInt - r).toNat < 1 := by simp [h]
    simp only [State.clearCause, if_pos hz]
    exact read_write_reg _ _ _ hw
  · rw [clearCause_other s r h, decide_eq_false h]
    exact registersAfterReads_of_eq rfl

/-- Reads after reads: the source code is cleared if one of them clears it. -/
theorem registersAfterReads_trans {s t u : State} {c d : Bool} (hp : t.par = s.par)
    (h : t.registersAfterReads s c) (k : u.registersAfterReads t d) : u.registersAfterReads s (c || d) := by
  obtain ⟨h1, h2, h3⟩ := h
  obtain ⟨k1, k2, k3⟩ := k
  rw [hp] at k1 k3
  refine ⟨fun a ha => (k1 a ha).trans (h1 a ha), ?_, ?_⟩
  · intro e a
    obtain ⟨hc, hd⟩ := Bool.or_eq_false_iff.mp e
    exact (k2 hd a).trans (h2 hc a)
  · intro hw
    refine ⟨(k3 (h3 hw).1).1, fun _ => ?_⟩
    cases c <;> cases d <;> simp_all [BitVec.and_assoc]
/-- One attempt of a one-byte read clears at most the source code, and that only where it reads the interrupt source register. -/
theorem memRead_registers (s : State) (r : RegAddr) :
    ∃ cleared, (s.memRead r 1).2.registersAfterReads s cleared ∧ (cleared = true → r = s.par.sensor.regInt) := by
  cases ha : (s.emit (.busRead s.par.bus.addr r 1)).drawBus with
  | mk answer u =>
    have hr : u.sensorRegs = s.sensorRegs := by
      rw [show u = ((s.emit (.busRead s.par.bus.addr r 1)).drawBus).2 by rw [ha], drawBus_regs]; rfl
    have hp : u.par = s.par := by
      rw [show u = ((s.emit (.busRead s.par.bus.addr r 1)).drawBus).2 by rw [ha], (drawBus_same _).par]; rfl
    have hit : ∀ t : State, t.sensorRegs = (u.clearCause r 1).sensorRegs →
        t.registersAfterReads s (decide (r = s.par.sensor.regInt)) := by
      intro t ht
      have h := registersAfterReads_trans hp (registersAfterReads_of_eq hr) (clearCause_registers u r)
      rw [hp, Bool.false_or] at h
      simpa only [State.registersAfterReads, State.registersAsBut, ht] using h
    unfold State.memRead State.busReadOnce
    rw [ha]
    cases answer with
    | ok given => exact ⟨_, hit _ rfl, by simp⟩
    | fail cause reached =>
      cases reached
      · exact ⟨false, registersAfterReads_of_eq (by simpa using hr), by simp⟩
      · exact ⟨_, hit _ (by simp), by simp⟩

/-- A failed attempt of a readModifyWrite puts its traffic out, changes no other register than the field's, and goes on to BACKOFF
or to the BusError. -/
theorem readModifyWrite_failed (s : State) (f : RegField) (v bits : Byte) (t : FailedTry) (rest : List BusAnswer)
    (hbits : (v <<< f.shift) &&& f.mask = bits) (hb : s.busIn = t.answers ++ rest) (hwf : s.sensorRegs.wf = true) :
    ∃ m : Memory, m.wf = true ∧ (∀ a, a ≠ f.reg.toNat → m.read a = s.sensorRegs.read a) ∧
      s.readModifyWrite f v = ({ s with
        busIn := rest, sensorRegs := m,
        out := s.out ++ attemptTraffic s.par.bus.addr f.reg f.mask bits t.got } : State).txFail t.cause := by
  obtain ⟨got, c, reached⟩ := t
  have hc := clearCause_wf s f.reg 1 hwf
  cases got with
  | none =>
    refine ⟨if reached then (s.clearCause f.reg 1).sensorRegs else s.sensorRegs, ?_, ?_, ?_⟩
    · split
      · exact hc
      · exact hwf
    · intro a ha
      split
      · exact clearCause_read _ _ _ ha
      · rfl
    · have hb' : (s.emit (.busRead s.par.bus.addr f.reg 1)).busIn = .fail c reached :: rest := hb
      unfold State.readModifyWrite State.busReadOnce
      rw [drawBus_cons _ _ _ hb']
      cases reached <;> simp [State.emit, State.clearCause, attemptTraffic]
  | some b =>
    refine ⟨if reached then (s.clearCause f.reg 1).sensorRegs.write f.reg.toNat ((b &&& ~~~f.mask) ||| bits)
      else (s.clearCause f.reg 1).sensorRegs, ?_, ?_, ?_⟩
    · split
      · exact wf_write _ _ _ hc
      · exact hc
    · intro a ha
      split
      · exact (read_write_other _ _ _ _ ha).trans (clearCause_read _ _ _ ha)
      · exact clearCause_read _ _ _ ha
    · unfold State.readModifyWrite
      rw [busReadOnce_ok s f.reg 1 [b] _ hb]
      simp only [answerBytes_one, List.getD_cons_zero, List.headD_cons]
      unfold State.busWriteOnce
      rw [drawBus_cons _ (.fail c reached) rest rfl]
      cases reached <;> simp [State.emit, State.clearCause, attemptTraffic, RegField.set, hbits, Memory.writeBytes]

end Sys2Proof.Laws
end

