-- ==== Sys2Proof/Laws/Effect.lean ====
section
/-! SUPPORT. What a step can do, said once: the effects of a request, of a micro-step of the main context, and of a move. A proof
about every step goes by cases on these and never unfolds the sequencer. -/

namespace Sys2Proof.Laws

open Sys2Proof.Machine

/-- What taking a request (a command word, or a driver call) can do to the state it is taken in. -/
inductive Accepts (u : State) : State → Prop where
  | waits (r : Request) : u.busy = true → Accepts u (u.wait r)
  | refused : u.phase = .idle → u.drvJob = none → Accepts u u.refuse
  | start : u.phase = .idle → u.drvJob = none → Accepts u (({ u with irqEn := true }).respond .ok .nothing)
  | stop : Accepts u (({ u with stopReq := true }).respond .ok .nothing)
  | service : u.phase = .idle → u.drvJob = none → Accepts u { u with phase := .sEntry, work := {} }
  | run : u.phase = .idle → u.drvJob = none →
      Accepts u { u with stopReq := false, running := true, phase := .sEntry, work := {} }
  | readEvent (d : Arg12) : u.phase = .idle → u.drvJob = none → u.driver = .configured →
      Accepts u (({ u with phase := .pSleep, work := { byHost := true } }).sleep d.toNat)
  | notReady : u.phase = .idle → u.drvJob = none → u.driver ≠ .configured → Accepts u (u.raise .notInitialized .nothing)
  | setObserver (id : Arg12) : u.phase = .idle → u.drvJob = none →
      Accepts u (({ u with observer := if id = 0 then none else some id }).respond .ok .nothing)
  | tail (n : Arg12) : u.phase = .idle → u.drvJob = none → Accepts u (u.respond .ok (.events (tailOf n.toNat u.log)))
  | driver (c : DrvCall) : u.phase = .idle → u.drvJob = none → Accepts u (u.drvStart c)

theorem busy_false (u : State) (h : ¬u.busy = true) : u.phase = .idle ∧ u.drvJob = none := by
  simpa [State.busy] using h

/-- A driver call is taken, or waits. -/
theorem drvCall_accepts (u : State) (c : DrvCall) : Accepts u (u.drvCall c) := by
  unfold State.drvCall
  split
  · next h => exact .waits _ h
  · next h => exact .driver c (busy_false u h).1 (busy_false u h).2

/-- A word of the reserved command space is refused, or waits. -/
theorem refuseCmd_accepts (u : State) (i : Instr) : Accepts u (u.refuseCmd i) := by
  unfold State.refuseCmd
  split
  · next h => exact .waits _ h
  · next h => exact .refused (busy_false u h).1 (busy_false u h).2

/-- The command rows. -/
theorem decodeCmd_accepts (u t : State) (w : CmdWord) (h : exec (decodeCmd w) u = .next t) : Accepts u t := by
  have hstart : ∀ v : State, execStart u = .next v → Accepts u v := by
    intro v hv; cases hv
    split
    · next hb => exact .waits _ hb
    · next hb => exact .start (busy_false u hb).1 (busy_false u hb).2
  have hservice : ∀ v : State, execService u = .next v → Accepts u v := by
    intro v hv; cases hv
    split
    · next hb => exact .waits _ hb
    · next hb => exact .service (busy_false u hb).1 (busy_false u hb).2
  have hrun : ∀ v : State, execRun u = .next v → Accepts u v := by
    intro v hv; cases hv
    split
    · next hb => exact .waits _ hb
    · next hb => exact .run (busy_false u hb).1 (busy_false u hb).2
  have hread : ∀ (d : Arg12) (v : State), execReadEvent d u = .next v → Accepts u v := by
    intro d v hv; cases hv
    split
    · next hb => exact .waits _ hb
    · next hb =>
      split
      · next hr => exact .readEvent d (busy_false u hb).1 (busy_false u hb).2 (by simpa [State.sensorReady] using hr)
      · next hr => exact .notReady (busy_false u hb).1 (busy_false u hb).2 (by simpa [State.sensorReady] using hr)
  have hobs : ∀ (d : Arg12) (v : State), execSetObserver d u = .next v → Accepts u v := by
    intro d v hv; cases hv
    split
    · next hb => exact .waits _ hb
    · next hb => exact .setObserver d (busy_false u hb).1 (busy_false u hb).2
  have htail : ∀ (d : Arg12) (v : State), execTail d u = .next v → Accepts u v := by
    intro d v hv; cases hv
    split
    · next hb => exact .waits _ hb
    · next hb => exact .tail d (busy_false u hb).1 (busy_false u hb).2
  unfold decodeCmd at h
  dsimp only at h
  split at h
  · cases h; exact refuseCmd_accepts _ _
  · split at h
    · exact hstart _ h
    · cases h; exact refuseCmd_accepts _ _
  · split at h
    · cases h; exact .stop
    · cases h; exact refuseCmd_accepts _ _
  · split at h
    · exact hservice _ h
    · cases h; exact refuseCmd_accepts _ _
  · split at h
    · exact hrun _ h
    · cases h; exact refuseCmd_accepts _ _
  · exact hread _ _ h
  · exact hobs _ _ h
  · exact htail _ _ h
  · cases h; exact refuseCmd_accepts _ _

/-- A gain byte that decodes runs as the setting it encodes. -/
theorem driverWord_accepts (u t : State) (f : Format) (b : Byte) (i : Instr) (hi : driverWord f b = some i)
    (h : exec i u = .next t) : Accepts u t := by
  unfold driverWord at hi
  split at hi
  · unfold decodeGain at hi
    split at hi
    · cases hi; cases h; exact drvCall_accepts _ _
    · split at hi
      · cases hi; cases h; exact drvCall_accepts _ _
      · cases hi
  · unfold decodeStrikes at hi
    cases hi
    dsimp only at h
    split at h <;> (cases h; exact drvCall_accepts _ _)
  · unfold decodeDivider at hi
    cases hi
    dsimp only at h
    split at h <;> (cases h; exact drvCall_accepts _ _)
  all_goals cases hi

/-- The driver's calls. -/
theorem startCall_accepts (u t : State) (c : DrvCall) (h : u.startCall c = .next t) : Accepts u t := by
  unfold State.startCall at h
  split at h
  · split at h
    · next hi => exact driverWord_accepts _ _ _ _ _ hi h
    · cases h; exact drvCall_accepts _ _
  all_goals (cases h; exact drvCall_accepts _ _)

/-- What a micro-step of the main context can do to the state it begins in, its sleep being over. -/
inductive Effect (u : State) : State → Prop where
  | idle : Effect u u
  | accept (r : Request) (ws : List Request) (t : State) : u.drvJob = none → u.phase = .idle → u.waiting = r :: ws →
      Accepts { u with waiting := ws } t → Effect u t
  | driver (j : DrvJob) : u.drvJob = some j → Effect u (u.drvStep j)
  | entry : u.drvJob = none → u.phase = .sEntry → Effect u u.stepEntry
  | consume : u.drvJob = none → u.phase = .sConsume → Effect u u.stepConsume
  | sleep : u.drvJob = none → u.phase = .pSleep → Effect u u.stepSleep
  | readInt : u.drvJob = none → u.phase = .sReadInt → Effect u u.stepReadInt
  | lightning (c : Code4) : u.drvJob = none → u.phase = .sClassify → classify c = some .lightning →
      Effect u { u with phase := .sReadDist, work := { u.work with code := c, ts := u.now } }
  | plain (k : Kind) (c : Code4) : u.drvJob = none → u.phase = .sClassify → classify c = some k → k ≠ .lightning →
      Effect u (u.returnEvent (some (u.plainEvent k c)))
  | noEvent : u.drvJob = none → u.phase = .sClassify → Effect u (u.returnEvent none)
  | dist (bs : List Byte) (v : State) (b : Byte) : u.drvJob = none → u.phase = .sReadDist →
      u.memRead u.par.sensor.regDist 1 = (.done bs, v) →
      Effect u { v with phase := .sReadEnergy,
                        work := { v.work with dist := maskDistance v.par.sensor.distShift b, energyBytes := [] } }
  | energyByte (r : RegAddr) : u.drvJob = none → u.phase = .sReadEnergy → Effect u (u.readEnergyByte r)
  | energy (bs : List Byte) (v : State) (en : BitVec 21) : u.drvJob = none → u.phase = .sReadEnergy →
      u.memRead u.par.sensor.regMsb 1 = (.done bs, v) → Effect u (v.returnEvent (some (v.lightningEvent en)))
  | readRetry (r : RegAddr) (v : State) : u.drvJob = none → (u.phase = .sReadDist ∨ u.phase = .sReadEnergy) →
      u.memRead r 1 = (.retry, v) → Effect u v
  | readError (r : RegAddr) (v : State) (n : Nat) (c : Cause) : u.drvJob = none →
      (u.phase = .sReadDist ∨ u.phase = .sReadEnergy) → u.memRead r 1 = (.error n c, v) →
      Effect u (v.raise .busError (.busFailure n c))
  | append : u.drvJob = none → u.phase = .sAppend → Effect u u.stepAppend
  | observe : u.drvJob = none → u.phase = .sObserve → Effect u u.stepObserve
  | throttle : u.drvJob = none → u.phase = .sThrottle → Effect u u.stepThrottle
  | keepalive : u.drvJob = none → u.phase = .sKeepalive → Effect u u.stepKeepalive
  | between : u.drvJob = none → u.phase = .rBetween → Effect u u.stepBetween

/-- The rows a code decodes to at S_CLASSIFY. -/
theorem decodeSrc_effect (u t : State) (c : Code4) (hj : u.drvJob = none) (hp : u.phase = .sClassify)
    (h : exec (decodeSrc c) u = .next t) : Effect u t := by
  have l : ∀ x : BitVec 3, classify (1#1 ++ x) = some .lightning := by decide
  have d : ∀ x : BitVec 2, classify (0b01#2 ++ x) = some .disturber := by decide
  have n : ∀ x : BitVec 1, classify (0b00#2 ++ x ++ 1#1) = some .noise := by decide
  unfold decodeSrc at h
  split at h
  · cases h; rw [if_pos hp]; exact .lightning _ hj hp (l _)
  · split at h
    · cases h; rw [if_pos hp]; exact .plain _ _ hj hp (d _) (by decide)
    · split at h
      · cases h; rw [if_pos hp]; exact .plain _ _ hj hp (n _) (by decide)
      · cases h; rw [if_pos hp]; exact .noEvent hj hp

/-- A micro-step of the main context has one of the effects. -/
theorem microStep_effect (u t : State) (h : u.microStep = .next t) : Effect u t := by
  unfold State.microStep at h
  split at h
  · next j hj => cases h; exact .driver j hj
  · next hj =>
    split at h
    · next hp =>
      unfold State.stepIdle at h
      split at h
      · cases h; exact .idle
      · next hw => exact .accept _ _ t hj hp hw (decodeCmd_accepts _ _ _ h)
      · next hw => exact .accept _ _ t hj hp hw (startCall_accepts _ _ _ h)
    · next hp => cases h; exact .entry hj hp
    · next hp => cases h; exact .consume hj hp
    · next hp => cases h; exact .sleep hj hp
    · next hp => cases h; exact .readInt hj hp
    · next hp => exact decodeSrc_effect _ _ _ hj hp h
    · next hp =>
      have hs := memRead_same u u.par.sensor.regDist 1
      unfold State.stepReadDist at h
      split at h
      · next bs v hm =>
        rw [hm] at hs
        have hv : v.phase = .sReadDist := hs.phase.trans hp
        rw [runWord, decode_dist] at h
        cases h
        rw [if_pos hv]
        exact .dist bs v _ hj hp hm
      · next v hm => cases h; exact .readRetry _ _ hj (.inl hp) hm
      · next n c v hm => cases h; exact .readError _ _ _ _ hj (.inl hp) hm
    · next hp =>
      unfold State.stepReadEnergy at h
      split at h
      · cases h; exact .energyByte _ hj hp
      · cases h; exact .energyByte _ hj hp
      · next l m tl _ =>
        have hs := memRead_same u u.par.sensor.regMsb 1
        split at h
        · next bs v hm =>
          rw [hm] at hs
          have hv : v.phase = .sReadEnergy := hs.phase.trans hp
          rw [runWord, decode_energy] at h
          cases h
          rw [if_pos hv]
          exact .energy bs v _ hj hp hm
        · next v hm => cases h; exact .readRetry _ _ hj (.inr hp) hm
        · next n c v hm => cases h; exact .readError _ _ _ _ hj (.inr hp) hm
    · next hp => cases h; exact .append hj hp
    · next hp => cases h; exact .observe hj hp
    · next hp => cases h; exact .throttle hj hp
    · next hp => cases h; exact .keepalive hj hp
    · next hp => cases h; exact .between hj hp

/-- What a move can do to the state it acts on. -/
inductive Moved (u : State) : Move → State → Prop where
  | main (t : State) : Effect u.wake t → Moved u .main t
  | noEdge (b : BitVec 1) : u.edgeAccepted = false ∨ b = 0 → Moved u (.irq b) u
  | edge : u.edgeAccepted = true → Moved u (.irq 1) { u with pending := true, lastEdge := u.now }
  | cmdWaits (w : CmdWord) : u.waiting ≠ [] → Moved u (.cmd w) (u.wait (.cmd w))
  | cmd (w : CmdWord) (t : State) : Accepts u t → Moved u (.cmd w) t
  | stopPort : Moved u .stopPort { u with stopReq := true }
  | advance (d : Nat) : Moved u (.advance d) { u with now := u.now + d }
  | driverWaits (c : DrvCall) : u.waiting ≠ [] → Moved u (.driver c) (u.wait (.drv c))
  | driver (c : DrvCall) (t : State) : Accepts u t → Moved u (.driver c) t
  | driverState (d : DriverState) : Moved u (.driverState d) { u with driver := d }
  | sensor (r : RegAddr) (b : Byte) : Moved u (.sensor r b) { u with sensorRegs := u.sensorRegs.write r.toNat b }

/-- A step makes the next move, and the move has one of the effects. -/
theorem step_moved (s t : State) (h : step s = .next t) : Moved s.nextMove.2 s.nextMove.1 t := by
  simp only [step, State.stepMove] at h
  generalize s.nextMove.2 = u at h ⊢
  generalize s.nextMove.1 = m at h ⊢
  cases m with
  | main => exact .main t (microStep_effect _ _ h)
  | irq b =>
    have hb : ∀ x : BitVec 1, x = 0 ∨ x = 1 := by decide
    rcases hb b with rfl | rfl
    · cases h; exact .noEdge 0 (.inr rfl)
    · have h' : exec .edge u = .next t := h
      cases h'
      split
      · next ha => exact .edge ha
      · next ha => exact .noEdge 1 (.inl (by simpa using ha))
  | cmd w =>
    simp only [State.move, State.cmdArrives] at h
    split at h
    · exact .cmd w t (decodeCmd_accepts _ _ _ h)
    · next hw => cases h; exact .cmdWaits w (by intro e; simp [e] at hw)
  | stopPort => cases h; exact .stopPort
  | advance d => cases h; exact .advance d
  | driver c =>
    simp only [State.move, State.callArrives] at h
    split at h
    · exact .driver c t (startCall_accepts _ _ _ h)
    · next hw => cases h; exact .driverWaits c (by intro e; simp [e] at hw)
  | driverState d => cases h; exact .driverState d
  | sensor r b => cases h; exact .sensor r b

/-- Taking the next move changes nothing but the schedule and the count of free values. -/
theorem nextMove_same (s : State) : ∃ ms n, s.nextMove.2 = { s with sched := ms, draws := n } := by
  unfold State.nextMove
  split
  · exact ⟨_, _, rfl⟩
  · next h => exact ⟨s.sched, _, rfl⟩

end Sys2Proof.Laws
end

