-- ==== Sys2Proof/Laws/Driver.lean ====
section
/-! SUPPORT. What a driver operation can do, said once: it changes no register of the block, it keeps the register space's
canonical form, and it puts out bus attempts and one result. -/

namespace Sys2Proof.Laws

open Sys2Proof.Machine

/-- Every register of the block is the same; the driver's own fields, the ports and the environment's answers may differ. -/
structure SameRegs (s t : State) : Prop where
  par : t.par = s.par
  now : t.now = s.now
  pending : t.pending = s.pending
  lastEdge : t.lastEdge = s.lastEdge
  irqEn : t.irqEn = s.irqEn
  log : t.log = s.log
  logWr : t.logWr = s.logWr
  lastAccDisturber : t.lastAccDisturber = s.lastAccDisturber
  lastAccNoise : t.lastAccNoise = s.lastAccNoise
  lastSrc : t.lastSrc = s.lastSrc
  keepaliveTs : t.keepaliveTs = s.keepaliveTs
  agg : t.agg = s.agg
  observer : t.observer = s.observer
  running : t.running = s.running
  stopReq : t.stopReq = s.stopReq
  phase : t.phase = s.phase
  drainN : t.drainN = s.drainN
  work : t.work = s.work
  waiting : t.waiting = s.waiting
  sched : t.sched = s.sched

theorem SameRegs.refl (s : State) : SameRegs s s := by constructor <;> rfl

theorem SameRegs.trans {s t u : State} (h : SameRegs s t) (k : SameRegs t u) : SameRegs s u := by
  cases h; cases k; constructor <;> simp_all

theorem SameBlock.regs {s t : State} (h : SameBlock s t) : SameRegs s t := by cases h; constructor <;> assumption

/-- A driver operation leaves the records of the block as they were. -/
theorem SameRegs.recordsAs {s t : State} (h : SameRegs s t) : t.recordsAs s :=
  ⟨h.par, h.pending, h.lastEdge, h.irqEn, h.log, h.logWr, h.lastAccDisturber, h.lastAccNoise, h.lastSrc, h.keepaliveTs,
    h.agg, h.observer, h.stopReq, h.drainN, h.waiting⟩

theorem drvFinish_same (s : State) (j : DrvJob) : SameRegs s (s.drvFinish j) := by constructor <;> rfl

theorem drvAdvance_same (s : State) (j : DrvJob) (ops : List DrvOp) (got : List Byte) :
    SameRegs s (s.drvAdvance j ops got) := by
  unfold State.drvAdvance
  dsimp only
  split
  · exact drvFinish_same _ _
  · constructor <;> rfl

theorem drvError_same (s : State) (j : DrvJob) (n : Nat) (c : Cause) : SameRegs s (s.drvError j n c) := by
  constructor <;> rfl

/-- One step of a driver operation changes no register of the block. -/
theorem drvStep_same (s : State) (j : DrvJob) : SameRegs s (s.drvStep j) := by
  have job : ∀ (u : State), SameRegs u { u with drvJob := some j } := fun u => by constructor <;> rfl
  unfold State.drvStep
  split
  · exact drvFinish_same _ _
  · exact SameRegs.trans (by constructor <;> rfl) (drvAdvance_same _ _ _ _)
  · next reg _ _ =>
    have h := (memRead_same s reg 1).regs
    split
    · next heq => rw [heq] at h; exact h.trans (drvAdvance_same _ _ _ _)
    · next heq => rw [heq] at h; exact h.trans (job _)
    · next heq => rw [heq] at h; exact h.trans (drvError_same _ _ _ _)
  · next reg bytes _ _ =>
    have h := (memWrite_same s reg bytes).regs
    split
    · next heq => rw [heq] at h; exact h.trans (drvAdvance_same _ _ _ _)
    · next heq => rw [heq] at h; exact h.trans (job _)
    · next heq => rw [heq] at h; exact h.trans (drvError_same _ _ _ _)
  · next f v _ _ =>
    have h := (readModifyWrite_same s f v).regs
    split
    · next heq => rw [heq] at h; exact h.trans (drvAdvance_same _ _ _ _)
    · next heq => rw [heq] at h; exact h.trans (job _)
    · next heq => rw [heq] at h; exact h.trans (drvError_same _ _ _ _)

/-- The beginning of a driver operation changes no register of the block. -/
theorem drvStart_same (s : State) (c : DrvCall) : SameRegs s (s.drvStart c) := by
  unfold State.drvStart
  split
  · exact (emit_same _ _).regs
  · split
    · exact (emit_same _ _).regs
    · exact drvStep_same _ _

theorem drvAdvance_regs (s : State) (j : DrvJob) (ops : List DrvOp) (got : List Byte) :
    (s.drvAdvance j ops got).sensorRegs = s.sensorRegs := by
  unfold State.drvAdvance; dsimp only; split <;> rfl

/-- One step of a driver operation keeps the canonical form. -/
theorem drvStep_wf (s : State) (j : DrvJob) (h : s.sensorRegs.wf = true) : (s.drvStep j).sensorRegs.wf = true := by
  unfold State.drvStep
  split
  · exact h
  · rw [drvAdvance_regs]; exact h
  · next reg _ _ =>
    have hw := memRead_wf s reg 1 h
    split
    · next heq => rw [heq] at hw; rw [drvAdvance_regs]; exact hw
    · next heq => rw [heq] at hw; exact hw
    · next heq => rw [heq] at hw; exact hw
  · next reg bytes _ _ =>
    have hw := memWrite_wf s reg bytes h
    split
    · next heq => rw [heq] at hw; rw [drvAdvance_regs]; exact hw
    · next heq => rw [heq] at hw; exact hw
    · next heq => rw [heq] at hw; exact hw
  · next f v _ _ =>
    have hw := readModifyWrite_wf s f v h
    split
    · next heq => rw [heq] at hw; rw [drvAdvance_regs]; exact hw
    · next heq => rw [heq] at hw; exact hw
    · next heq => rw [heq] at hw; exact hw

/-- The beginning of a driver operation keeps the canonical form. -/
theorem drvStart_wf (s : State) (c : DrvCall) (h : s.sensorRegs.wf = true) : (s.drvStart c).sensorRegs.wf = true := by
  unfold State.drvStart
  split
  · exact h
  · split
    · exact h
    · exact drvStep_wf _ _ h

end Sys2Proof.Laws
end

