-- ==== Sys2Proof/Laws/PerInstr.lean ====
section
/-! SUPPORT. One family of facts per instruction: its word fits its format (30_encoding.md R70: all formats are fixed-length). -/

namespace Sys2Proof.Laws.EncodeFits

/-- The word of the instruction has no bit above its format's width. -/
def Statement (i : Instr) : Prop := encode i < 2 ^ i.format.bits

theorem edge : Statement .edge := by unfold Statement; decide
theorem start : Statement .start := by unfold Statement; decide
theorem stop : Statement .stop := by unfold Statement; decide
theorem service : Statement .service := by unfold Statement; decide
theorem run : Statement .run := by unfold Statement; decide
theorem readEvent (x : Arg12) : Statement (.readEvent x) := BitVec.isLt _
theorem setObserver (x : Arg12) : Statement (.setObserver x) := BitVec.isLt _
theorem tail (x : Arg12) : Statement (.tail x) := BitVec.isLt _
theorem reservedOp0 (x : Arg12) : Statement (.reservedOp0 x) := BitVec.isLt _
theorem reservedOp8F (x : BitVec 15) : Statement (.reservedOp8F x) := BitVec.isLt _
theorem startNonzeroArg (x : Arg12) : Statement (.startNonzeroArg x) := BitVec.isLt _
theorem stopNonzeroArg (x : Arg12) : Statement (.stopNonzeroArg x) := BitVec.isLt _
theorem serviceNonzeroArg (x : Arg12) : Statement (.serviceNonzeroArg x) := BitVec.isLt _
theorem runNonzeroArg (x : Arg12) : Statement (.runNonzeroArg x) := BitVec.isLt _
theorem srcLightning (x : BitVec 3) : Statement (.srcLightning x) := BitVec.isLt _
theorem srcDisturber (x : BitVec 2) : Statement (.srcDisturber x) := BitVec.isLt _
theorem srcNoise (x : BitVec 1) : Statement (.srcNoise x) := BitVec.isLt _
theorem srcNone (x : BitVec 1) : Statement (.srcNone x) := BitVec.isLt _
theorem dist6 (x : Byte) : Statement (.dist6 x) := BitVec.isLt _
theorem energy21 (x y z : Byte) : Statement (.energy21 x y z) := BitVec.isLt _
theorem gainIndoor (x : BitVec 2) (y : BitVec 1) : Statement (.gainIndoor x y) := BitVec.isLt _
theorem gainOutdoor (x : BitVec 2) (y : BitVec 1) : Statement (.gainOutdoor x y) := BitVec.isLt _
theorem minStrikes1 (x : BitVec 2) (y : BitVec 4) : Statement (.minStrikes1 x y) := BitVec.isLt _
theorem minStrikes5 (x : BitVec 2) (y : BitVec 4) : Statement (.minStrikes5 x y) := BitVec.isLt _
theorem minStrikes9 (x : BitVec 2) (y : BitVec 4) : Statement (.minStrikes9 x y) := BitVec.isLt _
theorem minStrikes16 (x : BitVec 2) (y : BitVec 4) : Statement (.minStrikes16 x y) := BitVec.isLt _
theorem divider16 (x : BitVec 6) : Statement (.divider16 x) := BitVec.isLt _
theorem divider32 (x : BitVec 6) : Statement (.divider32 x) := BitVec.isLt _
theorem divider64 (x : BitVec 6) : Statement (.divider64 x) := BitVec.isLt _
theorem divider128 (x : BitVec 6) : Statement (.divider128 x) := BitVec.isLt _

end Sys2Proof.Laws.EncodeFits
end

