-- ==== Sys2Proof/Tests/Slice0.lean ====
section
/-! SUPPORT. Tests of the model against the spec (expected values from 95_test_vectors.md, whose vector is named, or written out by
hand from the rule named), and one witness for each statement that has hypotheses. -/

namespace Sys2Proof.Tests

open Sys2Proof Sys2Proof.Machine

/-! ### A small state -/

/-- A parameter record with every value given: RETRIES 1, BACKOFF 5, the registers at 3 to 9, no calibration. -/
def par0 : Config.Params where
  bus := { retries := 1, backoff := 5, addr := 3 }
  sensor := { regInt := 3, regDist := 7, regLsb := 4, regMid := 5, regMsb := 6, intShift := 0, distShift := 0 }
  publish := { topicPrefix := "p", retainEvent := false, retainState := true }
  drv :=
    { regGain := 0, regStatus := 2, regSrcMask := 9, regBegin := 0,
      noiseFloor := { reg := 1, shift := 4 }, watchdog := { reg := 1, shift := 0 }, spike := { reg := 2, shift := 0 },
      tuning := { reg := 8, shift := 0 }, disturber := { reg := 9, shift := 5 }, clearStat := { reg := 2, shift := 6 },
      distanceMask := { reg := 7, shift := 7 }, oscAntenna := { reg := 8, shift := 7 },
      oscSystem := { reg := 8, shift := 6 }, oscInternal := { reg := 8, shift := 5 },
      calibration := [] }

/-- Configured, registered, idle, at time `now`. -/
def at_ (now : Nat) : State :=
  { State.reset with par := par0, agg := default, driver := .configured, irqEn := true, now := now }

/-- A capture pending since `edge`. -/
def pend (edge now : Nat) : State := { at_ now with pending := true, lastEdge := edge }

/-- The next state, where there is one. -/
def nextOf : Host.Outcome State Fault Refusal → Option State
  | .next t => some t
  | .fault _ | .refused _ => none

/-- The field `f` of the next state. -/
def get {α : Type} (f : State → α) (o : Host.Outcome State Fault Refusal) : Option α := (nextOf o).map f

/-- A Disturber and a Noise of time `t`. -/
def dist (t : Nat) : Event := { ts := t, kind := .disturber, distanceKm := none, energy := none, raw := 4 }
def noise (t : Nat) : Event := { ts := t, kind := .noise, distanceKm := none, energy := none, raw := 1 }

/-! ### WellFormed: the word with `arg = 0` is the command itself (30_encoding.md R78 (b)) -/

theorem test_wf_start : (Instr.startNonzeroArg 0).wellFormed = false := by decide
theorem test_wf_stop : (Instr.stopNonzeroArg 0).wellFormed = false := by decide
theorem test_wf_service : (Instr.serviceNonzeroArg 0).wellFormed = false := by decide
theorem test_wf_run : (Instr.runNonzeroArg 0).wellFormed = false := by decide

/-! ### Decoding: every constructor from a word written out from the encoding column of spec/opcode_table.json -/

theorem test_decode_edge : decode .edge1 0b1 = .ok .edge := by decide
theorem test_decode_no_edge : decode .edge1 0b0 = .error .noEdge := by decide

theorem test_decode_commands :
    decode .cmd16 0b0001000000000000 = .ok .start ∧ decode .cmd16 0b0010000000000000 = .ok .stop ∧
    decode .cmd16 0b0011000000000000 = .ok .service ∧ decode .cmd16 0b0100000000000000 = .ok .run ∧
    decode .cmd16 0b0101111111111111 = .ok (.readEvent 4095) ∧ decode .cmd16 0b0110000000000111 = .ok (.setObserver 7) ∧
    decode .cmd16 0b0111000000000011 = .ok (.tail 3) := by decide

theorem test_decode_refused_words :
    decode .cmd16 0b0000000100100011 = .ok (.reservedOp0 0x123) ∧
    decode .cmd16 0b1000000000000000 = .ok (.reservedOp8F 0) ∧
    decode .cmd16 0b1111111111111111 = .ok (.reservedOp8F 0x7FFF) ∧
    decode .cmd16 0b0001000000000001 = .ok (.startNonzeroArg 1) ∧
    decode .cmd16 0b0010111111111111 = .ok (.stopNonzeroArg 0xFFF) ∧
    decode .cmd16 0b0011000000000001 = .ok (.serviceNonzeroArg 1) ∧
    decode .cmd16 0b0100100000000000 = .ok (.runNonzeroArg 0x800) := by decide

theorem test_decode_source_codes :
    decode .src4 0b1101 = .ok (.srcLightning 0b101) ∧ decode .src4 0b0110 = .ok (.srcDisturber 0b10) ∧
    decode .src4 0b0011 = .ok (.srcNoise 1) ∧ decode .src4 0b0010 = .ok (.srcNone 1) := by decide

theorem test_decode_sensor_bytes :
    decode .regByte 0b11000101 = .ok (.dist6 0xC5) ∧
    decode .regByte3 0b111000010001001000110100 = .ok (.energy21 0xE1 0x12 0x34) := by decide

theorem test_decode_gain :
    decode .gainReg 0b11100101 = .ok (.gainIndoor 0b11 1) ∧ decode .gainReg 0b01011100 = .ok (.gainOutdoor 0b01 0) ∧
    decode .gainReg 0b00000000 = .error .gainNotAPreset := by decide

theorem test_decode_strikes :
    decode .statusReg 0b01000001 = .ok (.minStrikes1 0b01 0b0001) ∧
    decode .statusReg 0b01011111 = .ok (.minStrikes5 0b01 0b1111) ∧
    decode .statusReg 0b10100110 = .ok (.minStrikes9 0b10 0b0110) ∧
    decode .statusReg 0b11111001 = .ok (.minStrikes16 0b11 0b1001) := by decide

theorem test_decode_divider :
    decode .srcMaskReg 0b00100001 = .ok (.divider16 0b100001) ∧ decode .srcMaskReg 0b01000011 = .ok (.divider32 0b000011) ∧
    decode .srcMaskReg 0b10110000 = .ok (.divider64 0b110000) ∧
    decode .srcMaskReg 0b11001111 = .ok (.divider128 0b001111) := by decide

/-- Section 10: `START`, `READ_EVENT 4095`, `SET_OBSERVER 7`, `TAIL 256`. -/
theorem test_encode_words :
    encode .start = 0x1000 ∧ encode (.readEvent 4095) = 0x5FFF ∧ encode (.setObserver 7) = 0x6007 ∧
    encode (.tail 256) = 0x7100 ∧ encode (.srcNoise 1) = 0b0011 ∧ encode (.gainIndoor 0b11 1) = 0xE5 := by decide

/-- A word of the table, placed after reset, is the one the next step runs. -/
theorem test_fetch_edge : get State.lastEdge (step ((at_ 9).withFetchWord 1 1)) = some 9 := by decide
theorem test_fetch_start : get State.irqEn (step (State.reset.withFetchWord 16 0x1000)) = some true := by decide

/-! ### Pure codecs -/

/-- V2.1. -/
theorem test_classify :
    (List.range 16).map (fun n => kind4 (classify (BitVec.ofNat 4 n))) =
      [0, 1, 0, 1, 4, 4, 4, 4, 8, 8, 8, 8, 8, 8, 8, 8] := by decide

/-- V2.2: the bytes 0xF8, 0x80 and 0x1F. -/
theorem test_source_code : sourceCode 0 0xF8 = 0b1000 ∧ sourceCode 4 0x80 = 0b1000 ∧ sourceCode 4 0x1F = 0b0001 := by decide

/-- V2.3. -/
theorem test_energy :
    assembleEnergy 0xFF 0xFF 0x1F = 2097151 ∧ assembleEnergy 0xFF 0xFF 0xFF = 2097151 ∧
    assembleEnergy 0x00 0x00 0xE0 = 0 ∧ assembleEnergy 0x34 0x12 0xE1 = 70196 ∧
    assembleEnergy 0x10 0x27 0x00 = 10000 ∧ assembleEnergy 0x00 0x00 0x10 = 1048576 := by decide

/-- V2.4. -/
theorem test_distance :
    maskDistance 0 0x0A = 10 ∧ maskDistance 0 0xFF = 63 ∧ maskDistance 0 0x40 = 0 ∧ maskDistance 0 0xC5 = 5 ∧
    maskDistance 2 0x28 = 10 := by decide

/-- V2.5: tuning capacitance, minimum strikes, divider. -/
theorem test_driver_codecs :
    ([0, 7, 8, 96, 119, 120, 127, 200] : List Int).map tuningSteps = [0, 0, 1, 12, 14, 15, 15, 15] ∧
    [1, 5, 9, 16, 2].map strikesEncode = [some 0, some 1, some 2, some 3, none] ∧
    dividerDecode 0b10 = 64 ∧ dividerEncode 32 = some 1 ∧ strikesDecode 4 = none := by decide

/-- 00_scope.md R4, 30_encoding.md R72: the record meets its constraints, and a log that TAIL cannot name does not. -/
theorem test_params_ok : par0.ok = true ∧ ({ par0 with logCapacity := 4096 } : Config.Params).ok = false := by decide

/-- V2.6. -/
theorem test_evtrec :
    evtrec { ts := 103, kind := .lightning, distanceKm := some 10, energy := some 10000, raw := 8 } = 0xCE027109588 ∧
    evtrec { ts := 0, kind := .lightning, distanceKm := some 63, energy := some 0x1FFFFF, raw := 0b1101 } = 0x1FFFFFFF8D ∧
    evtrec (dist 1005) = 0x7DA000000044 ∧ evtrec (noise 2) = 0x4000000011 := by decide

/-! ### EDGE -/

/-- V3.3: 3 is not more than 3. -/
theorem test_edge_ignored : get State.lastEdge (exec .edge (pend 100 103)) = some 100 := by decide
/-- V3.4. -/
theorem test_edge_accepted : get State.lastEdge (exec .edge (pend 100 104)) = some 104 := by decide

/-! ### The commands -/

/-- R160. -/
theorem test_start : get State.irqEn (exec .start { at_ 0 with irqEn := false }) = some true := by decide
/-- R177: in the middle of a bus read. -/
theorem test_stop : get State.stopReq (exec .stop { at_ 0 with phase := .sReadInt }) = some true := by decide
/-- R161. -/
theorem test_service : get State.phase (exec .service (at_ 0)) = some .sEntry := by decide
/-- R176, program P7: a stale STOP_REQ is cleared. -/
theorem test_run : get (fun t => (t.running, t.stopReq)) (exec .run { at_ 1 with stopReq := true }) = some (true, false) := by
  decide
/-- Program P4: `READ_EVENT 2` at 0 sleeps to 2. -/
theorem test_read_event : get (fun t => (t.phase, t.wakeAt)) (exec (.readEvent 2) (at_ 0)) = some (.pSleep, 2) := by decide
/-- V8.7: no sleep, no bus read. -/
theorem test_read_event_not_ready :
    get (fun t => (t.phase, t.out)) (exec (.readEvent 2) { at_ 40 with driver := .initialized }) =
      some (.idle, [.rsp .notInitialized .nothing]) := by decide
/-- R174: 0 un-registers. -/
theorem test_set_observer :
    get State.observer (exec (.setObserver 7) { at_ 0 with observer := some 9 }) = some (some 7) := by decide
theorem test_unset_observer :
    get State.observer (exec (.setObserver 0) { at_ 0 with observer := some 9 }) = some none := by decide
/-- V5.2: `TAIL 2`. -/
theorem test_tail :
    get State.out (exec (.tail 2) { at_ 0 with log := [dist 3, dist 4, noise 5] }) =
      some [.rsp .ok (.events [dist 4, noise 5])] := by decide
/-- V8.6: each of the nine words is refused; 0x2FFF latches no STOP_REQ. -/
theorem test_refused_words :
    ([0x0000, 0x0123, 0x8000, 0xF000, 0xFFFF, 0x1001, 0x2FFF, 0x3001, 0x4800] : List CmdWord).map
        (fun w => get (fun t => (t.out, t.stopReq, t.phase)) (exec (decodeCmd w) (at_ 0))) =
      List.replicate 9 (some ([.rsp .refused .nothing], false, .idle)) := by decide
/-- R56, R177: during a service, and behind a request that waits, a refused word waits; only STOP goes ahead. -/
theorem test_refused_word_waits :
    [0x0000, 0xFFFF, 0x1001, 0x2FFF, 0x3001, 0x4800].all (fun w : CmdWord =>
      let b : State := { at_ 0 with phase := .sReadInt }
      let q : State := { at_ 0 with waiting := [.cmd 0x3000] }
      decide (get (fun t => (t.out, t.waiting)) (b.cmdArrives w) = some ([], [.cmd w])) &&
      decide (get (fun t => (t.out, t.waiting)) (q.cmdArrives w) = some ([], [.cmd 0x3000, .cmd w])) &&
      decide (get (fun t => (t.stopReq, t.waiting)) (q.cmdArrives 0x2000) = some (true, [.cmd 0x3000]))) = true := by decide

/-! ### The words the sensor answers with -/

/-- R143: `t` is the time of classification. -/
theorem test_lightning :
    get (fun t => (t.phase, t.work.code, t.work.ts)) (exec (.srcLightning 0b101) { at_ 103 with phase := .sClassify }) =
      some (.sReadDist, 0b1101, 103) := by decide
theorem test_disturber :
    get (fun t => (t.phase, t.work.ev)) (exec (.srcDisturber 0) { at_ 105 with phase := .sClassify }) =
      some (.sAppend, some (dist 105)) := by decide
theorem test_noise :
    get (fun t => (t.phase, t.work.ev)) (exec (.srcNoise 0) { at_ 111 with phase := .sClassify }) =
      some (.sAppend, some (noise 111)) := by decide
/-- V4.5. -/
theorem test_none :
    get (fun t => (t.phase, t.work.ev)) (exec (.srcNone 1) { at_ 110 with phase := .sClassify }) = some (.sConsume, none) := by
  decide
/-- V2.4: 0xC5 is 5. -/
theorem test_dist6 :
    get (fun t => t.work.dist) (exec (.dist6 0xC5) { at_ 0 with phase := .sReadDist }) = some 5 := by decide
/-- V2.3: 0xE1, 0x12, 0x34 is 70196. -/
theorem test_energy21 :
    get (fun t => t.work.ev.bind Event.energy) (exec (.energy21 0xE1 0x12 0x34) { at_ 0 with phase := .sReadEnergy }) =
      some (some 70196) := by decide

/-! ### The register settings: the byte written, from the byte the sensor answers with -/

/-- The last byte a setting writes when the register holds `b`. -/
def setting (i : Instr) (b : Byte) : Option (Option Output) :=
  get (fun t => t.out.getLast?) (exec i { at_ 0 with busIn := [.ok [b], .ok []] })

/-- V2.5: INDOOR into 0xC1 is 0xE5, OUTDOOR into 0x00 is 0x1C. -/
theorem test_gain_indoor : setting (.gainIndoor 0 0) 0xC1 = some (some (.driver (.byte 0xE5))) := by decide
theorem test_gain_outdoor : setting (.gainOutdoor 3 1) 0x00 = some (some (.driver (.byte 0x1C))) := by decide
/-- V2.5: count 9 into 0xFF is 0xEF; the others by R103 and R44. -/
theorem test_min_strikes_1 : setting (.minStrikes1 3 15) 0xFF = some (some (.driver (.byte 0xCF))) := by decide
theorem test_min_strikes_5 : setting (.minStrikes5 0 0) 0xFF = some (some (.driver (.byte 0xDF))) := by decide
theorem test_min_strikes_9 : setting (.minStrikes9 0 0) 0xFF = some (some (.driver (.byte 0xEF))) := by decide
theorem test_min_strikes_16 : setting (.minStrikes16 0 0) 0x41 = some (some (.driver (.byte 0x71))) := by decide
/-- R105 and R44. -/
theorem test_divider_16 : setting (.divider16 0) 0xFF = some (some (.driver (.byte 0x3F))) := by decide
theorem test_divider_32 : setting (.divider32 0) 0xFF = some (some (.driver (.byte 0x7F))) := by decide
theorem test_divider_64 : setting (.divider64 0) 0x15 = some (some (.driver (.byte 0x95))) := by decide
theorem test_divider_128 : setting (.divider128 0) 0x15 = some (some (.driver (.byte 0xD5))) := by decide

/-! ### The service loop -/

/-- V4.2, V4.3, V4.3b. -/
theorem test_consume :
    (pend 100 101).consume.1 = false ∧ (pend 100 102).consume.1 = true ∧ (pend 100 100).consume.1 = false := by decide

/-- V5.1: the circular form after five appends at capacity 3, and `TAIL 3`. -/
theorem test_ring :
    let s := [1, 2, 3, 4, 5].foldl (fun s n => s.append (dist n)) { at_ 0 with par := { par0 with logCapacity := 3 } }
    s.logMem = [dist 4, dist 5, dist 3] ∧ s.logWr = 2 ∧ tailOf 3 s.log = [dist 3, dist 4, dist 5] := by decide

/-- V6.2, V6.3, V6.3b, V6.4a, V6.5a. -/
theorem test_throttle :
    let s : State := { at_ 0 with lastSrc := some .disturber, lastAccDisturber := 1000 }
    [dist 5000, dist 601000, dist 600999, noise 2000].map s.throttlePass = [false, true, false, true] ∧
    s.throttlePass { dist 2000 with kind := .lightning } = true := by decide

/-- V7.1, V7.2. -/
theorem test_keepalive : (at_ 899999).keepaliveDue = false ∧ (at_ 900000).keepaliveDue = true := by decide

/-- V9.1 and V9.5: an attempt that fails is tried again after BACKOFF, or is the BusError. -/
theorem test_bus_retry :
    let s : State := { at_ 0 with busIn := [.fail 2 false] }
    (s.memRead 3 1).2.wakeAt = 5 ∧ (s.memRead 3 1).2.busTry = 1 := by decide

/-- The register space keeps its canonical form: writing what an unlisted register reads as removes the cell. -/
theorem test_memory :
    Memory.write [(2, 7), (5, 1)] 5 0 = [(2, 7)] ∧ Memory.write [(2, 7)] 1 9 = [(1, 9), (2, 7)] := by decide

/-! ### Witnesses: a state and operands that meet the hypotheses of each statement, clause by clause -/

/-- The next move is `m`, at time `now`, in phase `p`. -/
def at' (p : Phase) (m : Move) (now : Nat) : State := { at_ now with phase := p, sched := [m] }

theorem witness_DecodeOfEncodeIsTheInstruction :
    (Instr.startNonzeroArg 1).wellFormed = true ∧ (Instr.energy21 255 0 1).wellFormed = true := by decide

theorem witness_EncodeOfDecodeIsTheWord :
    decode .cmd16 0x5002 = .ok (.readEvent 2) ∧ decode .gainReg 0x1D = .ok (.gainOutdoor 0 1) := by decide

theorem witness_OnlyStrobeZeroAndPresetlessGainAreRejected :
    0 < 2 ^ Format.edge1.bits ∧ decode .edge1 0 = .error .noEdge ∧ 255 < 2 ^ Format.gainReg.bits ∧
    decode .gainReg 255 = .error .gainNotAPreset := by decide

/-- A driver operation in progress. -/
def job : DrvJob := { call := .begin, todo := [.read 0], got := [] }

theorem witness_ReservedCommandWordsAreRefused :
    (0x0FFF : CmdWord).toNat / 4096 = 0 ∧ 8 ≤ (0x8000 : CmdWord).toNat / 4096 ∧
    ((0x4001 : CmdWord).toNat / 4096 ≤ 4 ∧ (0x4001 : CmdWord).toNat % 4096 ≠ 0) ∧
    (at_ 0).phase = .idle ∧ (at_ 0).drvJob = none ∧
    (at' .sEntry .main 0).phase ≠ .idle ∧ ({ at_ 0 with drvJob := some job } : State).drvJob.isSome = true := by decide

theorem witness_DriverCodecsMapTheLegalValues : 15 ≤ 15 ∧ 7 < 8 ∧ strikesEncode 16 = some 3 := by decide

theorem witness_StartRegistersTheCallback : (at_ 0).phase = .idle ∧ (at_ 0).drvJob = none := by decide
theorem witness_StopLatchesInEveryState : (at' .sReadInt .stopPort 0).sched = .stopPort :: [] := by decide
theorem witness_SetObserverReplacesTheSink : (at_ 0).phase = .idle ∧ (at_ 0).drvJob = none := by decide
theorem witness_TailAnswersTheLastEvents : (at_ 0).phase = .idle ∧ (at_ 0).drvJob = none := by decide
theorem witness_ServiceAndRunEnterTheLoop : (at_ 0).phase = .idle ∧ (at_ 0).drvJob = none := by decide
theorem witness_ReadEventSleepsOrRaisesNotInitialized :
    (at_ 0).phase = .idle ∧ (at_ 0).drvJob = none ∧ (at_ 0).driver = .configured ∧
    State.reset.phase = .idle ∧ State.reset.drvJob = none ∧ State.reset.driver ≠ .configured := by decide

theorem witness_RequestsWaitWhileBusy :
    (at' .sEntry .main 0).phase ≠ .idle ∧ ({ at_ 0 with drvJob := some job } : State).drvJob.isSome = true := by decide

theorem witness_SourceRowsEndTheRead :
    let s := at' .sClassify .main 0
    let h : State := { s with work := { byHost := true } }
    s.phase = .sClassify ∧ s.work.byHost = false ∧ h.phase = .sClassify ∧ h.work.byHost = true := by decide

theorem witness_DistanceAndEnergyMakeTheLightningEvent :
    (at' .sReadDist .main 0).phase = .sReadDist ∧ (at' .sReadEnergy .main 0).phase = .sReadEnergy := by decide
theorem witness_StraySensorWordsChangeNothing :
    (at_ 0).phase ≠ .sClassify ∧ (at_ 0).phase ≠ .sReadDist ∧ (at_ 0).phase ≠ .sReadEnergy := by decide

theorem witness_RegisterSettingsKeepTheOtherBits :
    let s : State := { at_ 0 with busIn := [.ok [0xC1], .ok []], sensorRegs := [(0, 0xC1)] }
    s.phase = .idle ∧ s.drvJob = none ∧ s.busIn = .ok [0xC1] :: .ok [] :: [] ∧ s.sensorRegs.wf = true := by decide

/-- No failed attempt; a failed read; a failed write; and RETRIES + 1 failed attempts. -/
theorem witness_FailedSettingIsRetriedAsAWhole :
    let readFails : FailedTry := { got := none, cause := 1, reached := true }
    let writeFails : FailedTry := { got := some 0xC1, cause := 2, reached := false }
    let s (fails : List FailedTry) (more : List BusAnswer) : State :=
      { at_ 0 with busIn := fails.flatMap FailedTry.answers ++ more }
    (s [] [.ok [0], .ok []]).phase = .idle ∧ (s [] [.ok [0], .ok []]).drvJob = none ∧
    (s [] []).sensorRegs.wf = true ∧ (s [] []).busTry = 0 ∧ ([] : List FailedTry).length ≤ par0.bus.retries ∧
    (s [] [.ok [0], .ok []]).busIn = .ok [0] :: .ok [] :: [] ∧
    [readFails].length ≤ par0.bus.retries ∧ (s [readFails] [.ok [0], .ok []]).busIn = .fail 1 true :: .ok [0] :: .ok [] :: [] ∧
    [writeFails].length ≤ par0.bus.retries ∧
    (s [writeFails] [.ok [0], .ok []]).busIn = .ok [0xC1] :: .fail 2 false :: .ok [0] :: .ok [] :: [] ∧
    [readFails, writeFails].length = par0.bus.retries + 1 ∧ [readFails, writeFails].getLast? = some writeFails ∧
    (s [readFails, writeFails] []).busIn = .fail 1 true :: .ok [0xC1] :: .fail 2 false :: [] := by decide

/-- One call for each clause; every level at its boundary. -/
theorem witness_SettersAndPowerBitWriteTheirFieldOnly :
    [DrvCall.power true, .power false, .setMode .indoor, .setMode .outdoor, .setMinStrikes 1, .setMinStrikes 5,
      .setMinStrikes 9, .setMinStrikes 16, .setDivider 16, .setDivider 32, .setDivider 64, .setDivider 128,
      .setNoiseFloor 7, .setWatchdog 15, .setSpike 15, .setTuningCaps 200, .setTuningCaps (-1), .setDisturber true,
      .setDisturber false].all (fun c =>
      let s : State := { at' .idle (.driver c) 0 with busIn := [.ok [0xC1], .ok []] }
      decide (s.sched = .driver c :: [] ∧ s.phase = .idle ∧ s.drvJob = none ∧ s.waiting = [] ∧
        s.busIn = .ok [0xC1] :: .ok [] :: [] ∧ s.sensorRegs.wf = true)) = true ∧ 7 ≤ 7 ∧ 15 ≤ 15 := by decide

/-- The byte the power bit is written in: `power true` into 0xC0 (R102, R130), and tuning 96 pF, 12 steps (R106). -/
theorem test_power_and_tuning :
    let out (c : DrvCall) : Option (Option Output) :=
      get (fun t => t.out.getLast?) (step { at' .idle (.driver c) 0 with busIn := [.ok [0xC0], .ok []] })
    out (.power true) = some (some (.driver (.byte 0xC1))) ∧ out (.setTuningCaps 96) = some (some (.driver (.byte 0xCC))) := by
  decide

/-- Success at once and after a retry; failure with no retry left, and after one. -/
theorem witness_BeginConfirmsTheDevice :
    [[], [(1, true)]].all (fun fails : List (Cause × Bool) => [BusAnswer.ok [], .fail 2 false].all (fun last =>
      let s : State := { at_ 0 with
        par := { par0 with bus := { par0.bus with retries := fails.length } }, driver := .uninitialized,
        sched := .driver .begin :: List.replicate fails.length .main,
        busIn := fails.map (fun f => .fail f.1 f.2) ++ [last] }
      decide (s.sched = .driver .begin :: (List.replicate fails.length .main ++ []) ∧ s.phase = .idle ∧ s.drvJob = none ∧
        s.waiting = [] ∧ s.driver = .uninitialized ∧ fails.length ≤ s.par.bus.retries - s.busTry ∧
        fails.length = s.par.bus.retries - s.busTry ∧
        s.busIn = fails.map (fun f => .fail f.1 f.2) ++ last :: []))) = true := by decide

/-- R49, R28 (a): a read of the interrupt source register, here 3 with the code in its low bits, keeps the other bits; a read of
another register keeps all. -/
theorem test_read_clears_the_code :
    let s : State := { at_ 0 with sensorRegs := [(3, 0xF8), (7, 0x0A)], busIn := [.ok []] }
    (s.memRead 3 1).2.sensorRegs = [(3, 0xF0), (7, 0x0A)] ∧ (s.memRead 7 1).2.sensorRegs = [(3, 0xF8), (7, 0x0A)] := by
  decide

/-- A SensorConfig with every level at its bound. -/
def config0 : SensorConfig where
  mode := .outdoor
  noiseFloor := 7
  watchdog := 15
  spike := 15
  minStrikes := 9
  tuningPf := 96
  disturberEnabled := false

/-- One calibration register, and each of the four sources. -/
theorem witness_ConfigurationSequenceLeadsToConfigured :
    [OscSource.none, .antenna, .system, .internal].all (fun src =>
      let s : State := { at_ 5 with
        par := { par0 with drv := { par0.drv with calibration := [(0x3D, 0x96)] } }, driver := .initialized,
        sched := .driver (.configure config0 src) :: List.replicate 11 .main,
        busIn := .ok [] :: (List.replicate 10 0xFF#8).flatMap (fun g => [.ok [g], .ok []]) }
      decide (s.par.drv.calibration.length = 1 ∧
        s.sched = .driver (.configure config0 src) :: (List.replicate (1 + 10) .main ++ []) ∧
        s.phase = .idle ∧ s.drvJob = none ∧ s.waiting = [] ∧ s.driver = .initialized ∧ s.wakeAt ≤ s.now ∧
        s.busIn = List.replicate 1 (.ok []) ++ (List.replicate 10 0xFF#8).flatMap (fun g => [.ok [g], .ok []]) ++ []) &&
      decide (get State.driver (s.steps 12) = some .configured) &&
      decide (get State.now (s.steps 12) = some 7)) = true ∧
    config0.noiseFloor ≤ 7 ∧ config0.watchdog ≤ 15 ∧ config0.spike ≤ 15 ∧ config0.minStrikes = 9 ∧
    (List.replicate 10 0xFF#8).length = 10 := by decide

theorem witness_OutOfRangeSettingsTouchNoBus :
    [DrvCall.setNoiseFloor 8, .setWatchdog 16, .setSpike 16, .setMinStrikes 2, .setDivider 17].all (fun c =>
      let s := at' .idle (.driver c) 0
      decide (s.sched = .driver c :: [] ∧ s.phase = .idle ∧ s.drvJob = none ∧ s.waiting = [])) = true ∧
    7 < 8 ∧ 15 < 16 ∧ 2 ≠ 1 ∧ 17 ≠ 16 := by decide

/-- Each of the three levels at its bound, by a field read and by status(). -/
theorem witness_LevelsAreReadBack :
    [(DrvCall.setNoiseFloor 7, fieldAt par0.drv.noiseFloor), (.setWatchdog 15, fieldAt par0.drv.watchdog),
      (.setSpike 15, fieldAt par0.drv.spike)].all (fun cf =>
      let r : State := { at_ 0 with
        sched := [.driver cf.1, .driver (.readField cf.2)], busIn := List.replicate 3 (.ok []) }
      let s : State := { at_ 0 with
        sched := .driver cf.1 :: .driver .status :: List.replicate 7 .main, busIn := List.replicate 10 (.ok []) }
      decide (cf.2.reg ≠ r.par.sensor.regInt ∧ r.sensorRegs.wf = true ∧ r.phase = .idle ∧ r.drvJob = none ∧
        r.waiting = [] ∧ r.sched = .driver cf.1 :: .driver (.readField cf.2) :: [] ∧
        r.busIn = List.replicate 3 (.ok []) ++ [] ∧
        s.sched = .driver cf.1 :: .driver .status :: (List.replicate 7 .main ++ []) ∧
        s.busIn = List.replicate 10 (.ok []) ++ [])) = true ∧ 7 ≤ 7 ∧ 15 ≤ 15 := by decide

theorem witness_StatusReadsAndNeverMutates :
    let s : State := { at_ 0 with
      sched := .driver .status :: List.replicate 7 .main,
      busIn := [0x24, 0x70, 0x0F, 3, 0x5F, 0x80, 0x80, 12].map (fun b => .ok [b]) }
    s.sched = .driver .status :: (List.replicate 7 .main ++ []) ∧ s.phase = .idle ∧ s.drvJob = none ∧ s.waiting = [] ∧
    s.wakeAt ≤ s.now ∧ s.busIn = [0x24, 0x70, 0x0F, 3, 0x5F, 0x80, 0x80, 12].map (fun b => .ok [b]) ++ [] := by decide

/-- V2.5: 0x24 is indoor, powered up; 0x5F is 5 strikes; 0x80 is divider 64; 12 steps are 96 pF. -/
theorem test_status :
    statusSnap par0 [0x24, 0x70, 0x0F, 3, 0x5F, 0x80, 0x80, 12] =
      { poweredDown := false, mode := some .indoor, noiseFloor := 7, watchdog := 15, spike := 3, minStrikes := some 5,
        distanceMask := true, divider := 64, tuningSteps := 12, tuningPf := 96 } := by decide

theorem witness_ClearStatisticsPulsesThreeTimes :
    let s : State := { at_ 0 with
      sched := [.driver .clearStatistics, .main, .main],
      busIn := [.ok [1], .ok [], .ok [2], .ok [], .ok [3], .ok []] }
    s.sched = .driver .clearStatistics :: .main :: .main :: [] ∧ s.phase = .idle ∧ s.drvJob = none ∧ s.waiting = [] ∧
    s.busIn = .ok [1] :: .ok [] :: .ok [2] :: .ok [] :: .ok [3] :: .ok [] :: [] := by decide

/-- A read in progress of each of the five registers. -/
def readings : List (State × RegAddr) :=
  [({ at_ 0 with phase := .sReadInt }, 3), ({ at_ 0 with phase := .sReadDist }, 7),
    ({ at_ 0 with phase := .sReadEnergy }, 4), ({ at_ 0 with phase := .sReadEnergy, work := { energyBytes := [1] } }, 5),
    ({ at_ 0 with phase := .sReadEnergy, work := { energyBytes := [1, 2] } }, 6),
    ({ at_ 0 with phase := .sReadEnergy, work := { energyBytes := [1, 2], byHost := true } }, 6)]

/-- No failed attempt, and RETRIES of them, on each register. -/
theorem witness_RetriedReadSucceedsAfterBackoffs :
    readings.all (fun sr => [[], [(1, true)]].all (fun fails : List (Cause × Bool) =>
      let s : State := { sr.1 with busIn := fails.map (fun f => .fail f.1 f.2) ++ [.ok [8]] }
      decide (s.readRegister = some sr.2 ∧ s.drvJob = none ∧ s.busTry = 0 ∧ s.wakeAt ≤ s.now ∧
        fails.length ≤ s.par.bus.retries ∧ s.busIn = fails.map (fun f => .fail f.1 f.2) ++ .ok [8] :: []))) = true := by
  decide

theorem witness_ExhaustedReadRaisesOneBusError :
    readings.all (fun sr =>
      let s : State := { sr.1 with busIn := [.fail 1 true, .fail 2 false] }
      decide (s.readRegister = some sr.2 ∧ s.drvJob = none ∧ s.busTry = 0 ∧ s.wakeAt ≤ s.now ∧
        [(1, true)].length = s.par.bus.retries ∧
        s.busIn = [(1, true)].map (fun f : Cause × Bool => .fail f.1 f.2) ++ .fail 2 false :: [])) = true := by decide

theorem witness_StepRunsTheDecodedInstruction :
    (at' .idle (.irq 1) 0).sched = .irq 1 :: [] ∧
    (at' .idle (.cmd 0x1000) 0).waiting = [] ∧ decode .cmd16 (0x1000 : CmdWord).toNat = .ok .start ∧
    (at' .idle (.cmd 0x2000) 0).sched = .cmd 0x2000 :: [] ∧
    [0x1FFF, 0x2001, 0x7003, 0xFFFF].all (fun w : CmdWord =>
      let s : State := { at' .idle (.cmd w) 0 with waiting := [.cmd 0x3000] }
      decide (s.sched = .cmd w :: [] ∧ w ≠ 0x2000 ∧ s.waiting ≠ [])) = true ∧
    ({ at' .idle (.driver .begin) 0 with waiting := [.cmd 0x3000] } : State).waiting ≠ [] ∧
    (at' .idle (.driver (.field .gainReg 0x24)) 0).waiting = [] ∧ decode .gainReg (0x24 : Byte).toNat = .ok (.gainIndoor 0 0) ∧
    (at' .idle .main 0).sched = .main :: [] ∧ (at' .idle .main 0).drvJob = none ∧ (at' .idle .main 0).phase = .idle ∧
    ({ at' .idle .main 0 with waiting := [.cmd 0x1000] } : State).waiting = .cmd 0x1000 :: [] ∧
    ({ at' .idle .main 0 with waiting := [.drv (.field .statusReg 0x30)] } : State).waiting =
      .drv (.field .statusReg 0x30) :: [] ∧
    decode .statusReg (0x30 : Byte).toNat = .ok (.minStrikes16 0 0) ∧
    (at' .sClassify .main 0).phase = .sClassify ∧ decode .src4 (at' .sClassify .main 0).work.code.toNat = .ok (.srcNone 0) ∧
    ({ at' .sReadDist .main 0 with busIn := [.ok [10]] } : State).busIn = .ok [10] :: [] ∧
    decode .regByte (10 : Byte).toNat = .ok (.dist6 10) ∧
    ({ at' .sReadEnergy .main 0 with work := { energyBytes := [1, 2] } } : State).work.energyBytes = 1 :: 2 :: [] ∧
    decode .regByte3 ((3 : Byte) ++ (2 : Byte) ++ (1 : Byte)).toNat = .ok (.energy21 3 2 1) := by decide

theorem witness_EntryChecksReadinessOnce :
    (at' .sEntry .main 0).sched = .main :: [] ∧ (at' .sEntry .main 0).drvJob = none ∧ (at' .sEntry .main 0).phase = .sEntry ∧
    (at' .sEntry .main 0).driver = .configured ∧
    ({ at' .sEntry .main 0 with driver := .initialized } : State).driver ≠ .configured := by decide

theorem witness_ConsumeTestsAndClearsInOneStep :
    let s := at' .sConsume .main 0
    s.sched = .main :: [] ∧ s.drvJob = none ∧ s.phase = .sConsume ∧ s.par.consumeSplit = false := by decide

/-- Each of the three stages. -/
theorem witness_SplitConsumeIsThreeMicroSteps :
    [SplitStage.readPending, .compare, .clear].all (fun st =>
      let s : State := { at' .sConsume .main 0 with par := { par0 with consumeSplit := true }, work := { split := st } }
      decide (s.sched = .main :: [] ∧ s.drvJob = none ∧ s.phase = .sConsume ∧ s.par.consumeSplit = true ∧
        s.work.split = st)) = true := by decide

theorem witness_ObserverFailureIsDiscarded :
    let s : State := { at' .sObserve .main 0 with work := { ev := some (noise 0) }, observer := some 7, sinkIn := [.fail] }
    let n : State := { s with observer := none }
    s.sched = .main :: [] ∧ s.drvJob = none ∧ s.phase = .sObserve ∧ s.work.ev = some (noise 0) ∧ s.observer = some 7 ∧
    s.sinkIn = .fail :: [] ∧ n.sched = .main :: [] ∧ n.work.ev = some (noise 0) ∧ n.observer = none := by decide

theorem witness_ThrottleForwardsOrSuppresses :
    let s : State := { at' .sThrottle .main 0 with work := { ev := some (noise 0) }, sinkIn := [.fail, .ok] }
    s.sched = .main :: [] ∧ s.drvJob = none ∧ s.phase = .sThrottle ∧ s.work.ev = some (noise 0) ∧
    s.sinkIn = .fail :: .ok :: [] := by decide

theorem witness_KeepaliveFiresExactlyWhenDue :
    let s : State := { at' .sKeepalive .main 900000 with sinkIn := [.ok] }
    s.sched = .main :: [] ∧ s.drvJob = none ∧ s.phase = .sKeepalive ∧ s.sinkIn = .ok :: [] := by decide

theorem witness_RunLooksAtStopBetweenIterations :
    let s : State := { at' .rBetween .main 0 with running := true }
    s.sched = .main :: [] ∧ s.drvJob = none ∧ s.phase = .rBetween ∧ s.stopReq = false ∧
    ({ s with stopReq := true } : State).stopReq = true := by decide

/-- V4.2: the dwell not elapsed; and nothing pending. -/
theorem witness_ServiceWithNothingToDrain :
    [at_ 50, pend 100 101].all (fun s =>
      decide (s.phase = .idle ∧ s.drvJob = none ∧ s.driver = .configured ∧ s.par.consumeSplit = false ∧
        s.running = false ∧ s.wakeAt ≤ s.now ∧ s.now - s.keepaliveTs < s.par.tKeepalive)) = true ∧
    (at_ 50).pending = false ∧ (pend 100 101).now - (pend 100 101).lastEdge < (pend 100 101).par.tDwell := by decide

theorem witness_SuppressedDisturberIsLoggedOnly :
    let s : State := { pend 5000 5002 with busIn := [.ok [4]], lastSrc := some .disturber, lastAccDisturber := 1000 }
    s.phase = .idle ∧ s.drvJob = none ∧ s.driver = .configured ∧ s.par.consumeSplit = false ∧ s.running = false ∧
    s.wakeAt ≤ s.now ∧ s.pending = true ∧ s.par.tDwell ≤ s.now - s.lastEdge ∧ 1 ≤ s.par.drainCap ∧
    s.observer = none ∧ s.busTry = 0 ∧ s.busIn = .ok [4] :: [] ∧
    sourceCode s.par.sensor.intShift 4 = 0b01#2 ++ 0#2 ∧
    s.lastSrc = some .disturber ∧ s.now - s.lastAccDisturber < s.par.tThrottle ∧
    s.now - s.keepaliveTs < s.par.tKeepalive := by decide

/-- V4.4 with an observer. -/
theorem witness_LightningIsReadLoggedObservedForwarded :
    let s : State := { pend 100 110 with
      busIn := [.ok [0x08], .ok [0x0A], .ok [0x10], .ok [0x27], .ok [0x00]], observer := some 7,
      sinkIn := [.fail, .ok, .ok] }
    s.phase = .idle ∧ s.drvJob = none ∧ s.driver = .configured ∧ s.par.consumeSplit = false ∧ s.running = false ∧
    s.wakeAt ≤ s.now ∧ s.pending = true ∧ s.par.tDwell ≤ s.now - s.lastEdge ∧ 1 ≤ s.par.drainCap ∧
    0 < s.par.tKeepalive ∧ s.busTry = 0 ∧
    s.busIn = .ok [0x08] :: .ok [0x0A] :: .ok [0x10] :: .ok [0x27] :: .ok [0x00] :: [] ∧
    s.observer = some 7 ∧ s.sinkIn = .fail :: .ok :: .ok :: [] ∧
    sourceCode s.par.sensor.intShift 0x08 = 1#1 ++ 0#3 := by decide

/-- Program P6 with no retry. -/
theorem witness_BusErrorLosesTheConsumedCapture :
    let s : State := { pend 100 105 with
      par := { par0 with bus := { retries := 0, backoff := 5, addr := 3 } }, busIn := [.ok [0x08], .fail 2 false] }
    s.phase = .idle ∧ s.drvJob = none ∧ s.driver = .configured ∧ s.par.consumeSplit = false ∧ s.wakeAt ≤ s.now ∧
    s.pending = true ∧ s.par.tDwell ≤ s.now - s.lastEdge ∧ 1 ≤ s.par.drainCap ∧ s.busTry = 0 ∧ s.par.bus.retries = 0 ∧
    s.busIn = .ok [0x08] :: .fail 2 false :: [] ∧ sourceCode s.par.sensor.intShift 0x08 = 1#1 ++ 0#3 := by decide

theorem witness_PolledEventGoesToTheCallerOnly :
    let s : State := { at_ 0 with busIn := [.ok [4]] }
    s.phase = .idle ∧ s.drvJob = none ∧ s.driver = .configured ∧ s.busTry = 0 ∧ s.busIn = .ok [4] :: [] ∧
    sourceCode s.par.sensor.intShift 4 = 0b01#2 ++ 0#2 := by decide

/-- A state with the invariant that takes a step: an edge comes while nothing is pending. -/
theorem witness_EveryStepKeepsTheInvariant :
    (at' .idle (.irq 1) 7).Inv ∧ ∃ t, step (at' .idle (.irq 1) 7) = .next t ∧ t.pending = true := by
  refine ⟨?_, _, rfl, rfl⟩
  constructor <;>
    simp [at', at_, State.reset, par0, State.sizesOk, State.logOk, State.timesOk, State.eventsOk, State.drainOk,
      State.contextOk, State.captureOk, Memory.wf, Memory.wfFrom]

theorem witness_ParametersAreConstantAndTimeNeverDecreases :
    ∃ t, step (at' .idle (.advance 5) 7) = .next t ∧ t.now = 12 := ⟨_, rfl, rfl⟩

/-- An accepted edge, and a consume at the dwell's boundary. -/
theorem witness_EachDebounceFieldHasOneWriter :
    (∃ t, step (at' .idle (.irq 1) 7) = .next t ∧ (at' .idle (.irq 1) 7).pending = false ∧ t.pending = true) ∧
    ∃ t, step { pend 100 102 with phase := .sConsume, sched := [.main] } = .next t ∧ t.pending = false :=
  ⟨⟨_, rfl, rfl, rfl⟩, _, rfl, rfl⟩

theorem witness_LastEdgeIsUnobservableWhileNothingPends :
    (at' .idle (.irq 1) 7).pending = false ∧ (at' .idle (.irq 1) 7).par.consumeSplit = false ∧
    ∃ t, step (at' .idle (.irq 1) 7) = .next t ∧ t.pending = true := ⟨rfl, rfl, _, rfl, rfl⟩

/-- A capture that is consumed in the run, and one that stays. -/
theorem witness_PendingCaptureSurvivesUntilConsumed :
    let s : State := { pend 100 102 with phase := .sConsume, sched := [.main] }
    s.par.consumeSplit = false ∧ s.pending = true ∧ (∃ t, s.steps 1 = .next t ∧ t.pending = false) ∧
    ∃ t, s.steps 0 = .next t ∧ t.pending = true := ⟨rfl, rfl, ⟨_, rfl, rfl⟩, _, rfl, rfl⟩

theorem witness_OnlyAppendChangesTheLog :
    ∃ t, step { at' .sAppend .main 0 with work := { ev := some (noise 0) } } = .next t ∧ t.log = [noise 0] := ⟨_, rfl, rfl⟩

theorem witness_OnlyForwardsChangeTheThrottleState :
    ∃ t, step { at' .sThrottle .main 0 with work := { ev := some (noise 0) }, sinkIn := [.ok, .ok] } = .next t ∧
      t.lastSrc = some .noise := ⟨_, rfl, rfl⟩

theorem witness_SettingsAreStableDuringAnOperation :
    (at' .sReadInt (.cmd 0x1000) 0).phase ≠ .idle ∧ (at' .sReadInt (.cmd 0x1000) 0).irqEn = true ∧
    ∃ t, step (at' .sReadInt (.cmd 0x1000) 0) = .next t ∧ t.waiting = [.cmd 0x1000] := ⟨by decide, rfl, _, rfl, rfl⟩

theorem witness_NoOperationOfTheBlockWritesTheSensor :
    let s : State := { at' .sReadInt .main 0 with busIn := [.ok [8]], sensorRegs := [(3, 8)] }
    s.phase ≠ .idle ∧ s.drvJob = none ∧ (∀ r b, s.nextMove.1 ≠ .sensor r b) ∧
    ∃ t, step s = .next t ∧ t.sensorRegs = [] := by
  intro s
  refine ⟨by decide, rfl, ?_, _, rfl, by decide⟩
  intro r b h
  have h' : Move.main = .sensor r b := h
  cases h'

/-- A RUN that ends on STOP_REQ, and one that ends on an error at S_ENTRY. -/
theorem witness_RunEndsOnlyOnStopOrError :
    let s : State := { at' .rBetween .main 0 with running := true, stopReq := true }
    let e : State := { at' .sEntry .main 0 with running := true, driver := .initialized }
    s.phase ≠ .idle ∧ s.running = true ∧ (∃ t, step s = .next t ∧ t.running = false) ∧
    e.phase ≠ .idle ∧ e.running = true ∧ ∃ t, step e = .next t ∧ t.running = false :=
  ⟨by decide, rfl, ⟨_, rfl, rfl⟩, by decide, rfl, _, rfl, rfl⟩

/-- A log that is empty, and one at capacity. -/
theorem witness_CircularBufferRefinesTheLog :
    [at_ 0, { at_ 9 with par := { par0 with logCapacity := 2 }, log := [dist 1, dist 2], logWr := 1 }].all (fun s =>
      decide (1 ≤ s.par.logCapacity) && decide (s.log.length ≤ s.par.logCapacity ∧ s.logWr < s.par.logCapacity ∧
        (s.log.length < s.par.logCapacity → s.logWr = s.log.length))) = true := by decide

theorem witness_TailReturnsTheMostRecentCapacityEvents : 1 ≤ 1 ∧ [dist 1, dist 2].length = 2 := by decide

/-- The run of SplitConsumeCanEraseAnEdge (program P5), step by step on one state: the edge at 110 is accepted between the compare
and the clear, and nothing is pending after it. -/
theorem test_split_consume_erases :
    let s : State := { pend 100 110 with
      par := { par0 with consumeSplit := true }, phase := .sConsume, sched := [.main, .main, .irq 1, .main] }
    get (fun t => (t.pending, t.lastEdge, t.phase)) (s.steps 4) = some (false, 110, .pSleep) := by decide

end Sys2Proof.Tests
end

section
/-! PROOF. The block always goes on (00_scope.md R6): each part of the sequencer has a next state, and so has every step. -/

namespace Sys2Proof.Proofs

open Sys2Proof.Machine Sys2Proof.Laws

/-- The distance read goes on, whatever the attempt's outcome; a byte that arrives goes on as its word does. -/
theorem stepReadDist_next (s : State) : ∃ t, s.stepReadDist = .next t := by
  unfold State.stepReadDist
  split
  · exact runWord_next _ _ _
  · exact ⟨_, rfl⟩
  · exact ⟨_, rfl⟩

/-- Each of the three energy reads goes on; the third's byte completes the word that is run. -/
theorem stepReadEnergy_next (s : State) : ∃ t, s.stepReadEnergy = .next t := by
  unfold State.stepReadEnergy
  split
  · exact ⟨_, rfl⟩
  · exact ⟨_, rfl⟩
  · split
    · exact runWord_next _ _ _
    · exact ⟨_, rfl⟩
    · exact ⟨_, rfl⟩

/-- The free main context goes on, with or without a request that waits. -/
theorem stepIdle_next (s : State) : ∃ t, s.stepIdle = .next t := by
  unfold State.stepIdle
  split
  · exact ⟨_, rfl⟩
  · exact exec_next _ _
  · exact startCall_next _ _

/-- The main context goes on in every phase: a driver operation and nine of the thirteen phases are a plain next state, and the
four others may run a decoded word. -/
theorem microStep_next (s : State) : ∃ t, s.microStep = .next t := by
  unfold State.microStep
  cases s.drvJob with
  | some j => exact ⟨_, rfl⟩
  | none =>
    cases s.phase with
    | idle => exact stepIdle_next s
    | sClassify => exact exec_next (decodeSrc s.work.code) s
    | sReadDist => exact stepReadDist_next s
    | sReadEnergy => exact stepReadEnergy_next s
    | _ => exact ⟨_, rfl⟩

/-- A command word goes on where it arrives: it is run, or it waits. -/
theorem cmdArrives_next (s : State) (w : CmdWord) : ∃ t, s.cmdArrives w = .next t := by
  unfold State.cmdArrives
  split
  · exact exec_next _ _
  · exact ⟨_, rfl⟩

/-- A driver call goes on where it arrives: it begins, or it waits. -/
theorem callArrives_next (s : State) (c : DrvCall) : ∃ t, s.callArrives c = .next t := by
  unfold State.callArrives
  split
  · exact startCall_next _ _
  · exact ⟨_, rfl⟩

/-- Every move of the machine and of its environment has a next state. -/
theorem move_next (s : State) (m : Move) : ∃ t, s.move m = .next t := by
  cases m with
  | main => exact microStep_next s.wake
  | irq strobe => exact runWord_next .edge1 strobe.toNat s
  | cmd w => exact cmdArrives_next s w
  | driver c => exact callArrives_next s c
  | stopPort => exact ⟨_, rfl⟩
  | advance d => exact ⟨_, rfl⟩
  | driverState d => exact ⟨_, rfl⟩
  | sensor reg b => exact ⟨_, rfl⟩

/-- Settles O48: a step is a move, scheduled or free, and every move has a next state. -/
theorem noStateIsStuck : Obligations.NoStateIsStuck := fun s => move_next s.nextMove.2 s.nextMove.1

end Sys2Proof.Proofs
end

section
/-! PROOF. Who writes the registers of the block: every step keeps them all, or is one of five writers (10_state.md R16, R18,
R20 to R24): the accepted edge, the consume, the append, the forward and the keepalive. -/

namespace Sys2Proof.Proofs

open Sys2Proof.Machine Sys2Proof.Laws

/-! ### The state the main context's micro-step begins in -/

/-- The state in which a `main` move begins its micro-step: the move is taken off the schedule, and the sleep is over. -/
def awake (s : State) : State := s.nextMove.2.wake

/-- Waking changes the time, and taking the move the schedule and the draws; nothing else. -/
theorem awake_eq (s : State) :
    ∃ ms n, awake s = { s with sched := ms, draws := n, now := max s.now s.wakeAt } := by
  obtain ⟨ms, n, h⟩ := nextMove_same s
  exact ⟨ms, n, by rw [awake, h]; rfl⟩

section
variable (s : State)

@[simp] theorem awake_par : (awake s).par = s.par := by obtain ⟨ms, n, h⟩ := awake_eq s; rw [h]
@[simp] theorem awake_now : (awake s).now = max s.now s.wakeAt := by obtain ⟨ms, n, h⟩ := awake_eq s; rw [h]
@[simp] theorem awake_pending : (awake s).pending = s.pending := by obtain ⟨ms, n, h⟩ := awake_eq s; rw [h]
@[simp] theorem awake_lastEdge : (awake s).lastEdge = s.lastEdge := by obtain ⟨ms, n, h⟩ := awake_eq s; rw [h]
@[simp] theorem awake_irqEn : (awake s).irqEn = s.irqEn := by obtain ⟨ms, n, h⟩ := awake_eq s; rw [h]
@[simp] theorem awake_log : (awake s).log = s.log := by obtain ⟨ms, n, h⟩ := awake_eq s; rw [h]
@[simp] theorem awake_logWr : (awake s).logWr = s.logWr := by obtain ⟨ms, n, h⟩ := awake_eq s; rw [h]
@[simp] theorem awake_lastAccDisturber : (awake s).lastAccDisturber = s.lastAccDisturber := by
  obtain ⟨ms, n, h⟩ := awake_eq s; rw [h]
@[simp] theorem awake_lastAccNoise : (awake s).lastAccNoise = s.lastAccNoise := by
  obtain ⟨ms, n, h⟩ := awake_eq s; rw [h]
@[simp] theorem awake_lastSrc : (awake s).lastSrc = s.lastSrc := by obtain ⟨ms, n, h⟩ := awake_eq s; rw [h]
@[simp] theorem awake_keepaliveTs : (awake s).keepaliveTs = s.keepaliveTs := by
  obtain ⟨ms, n, h⟩ := awake_eq s; rw [h]
@[simp] theorem awake_agg : (awake s).agg = s.agg := by obtain ⟨ms, n, h⟩ := awake_eq s; rw [h]
@[simp] theorem awake_observer : (awake s).observer = s.observer := by obtain ⟨ms, n, h⟩ := awake_eq s; rw [h]
@[simp] theorem awake_phase : (awake s).phase = s.phase := by obtain ⟨ms, n, h⟩ := awake_eq s; rw [h]
@[simp] theorem awake_drainN : (awake s).drainN = s.drainN := by obtain ⟨ms, n, h⟩ := awake_eq s; rw [h]
@[simp] theorem awake_work : (awake s).work = s.work := by obtain ⟨ms, n, h⟩ := awake_eq s; rw [h]
@[simp] theorem awake_drvJob : (awake s).drvJob = s.drvJob := by obtain ⟨ms, n, h⟩ := awake_eq s; rw [h]

end

/-! ### The steps that write none of these registers -/

/-- The parameters, DebounceState, the log, the throttle's registers, AGG and the keepalive's time are the same in `t`, and `now`
is no earlier; IRQ_EN is not cleared, and neither it nor OBSERVER changes while an operation is in progress. -/
structure Keeps (s t : State) : Prop where
  par : t.par = s.par
  now : s.now ≤ t.now
  pending : t.pending = s.pending
  lastEdge : t.lastEdge = s.lastEdge
  log : t.log = s.log
  logWr : t.logWr = s.logWr
  lastAccDisturber : t.lastAccDisturber = s.lastAccDisturber
  lastAccNoise : t.lastAccNoise = s.lastAccNoise
  lastSrc : t.lastSrc = s.lastSrc
  keepaliveTs : t.keepaliveTs = s.keepaliveTs
  agg : t.agg = s.agg
  irqEn : s.irqEn = true → t.irqEn = true
  settings : s.phase ≠ .idle → t.irqEn = s.irqEn ∧ t.observer = s.observer

theorem Keeps.refl (s : State) : Keeps s s := by constructor <;> simp

/-- What is kept in two parts is kept, when the first part does not end the operation. -/
theorem Keeps.trans {s u t : State} (h : Keeps s u) (hp : u.phase = s.phase) (k : Keeps u t) : Keeps s t where
  par := k.par.trans h.par
  now := h.now.trans k.now
  pending := k.pending.trans h.pending
  lastEdge := k.lastEdge.trans h.lastEdge
  log := k.log.trans h.log
  logWr := k.logWr.trans h.logWr
  lastAccDisturber := k.lastAccDisturber.trans h.lastAccDisturber
  lastAccNoise := k.lastAccNoise.trans h.lastAccNoise
  lastSrc := k.lastSrc.trans h.lastSrc
  keepaliveTs := k.keepaliveTs.trans h.keepaliveTs
  agg := k.agg.trans h.agg
  irqEn he := k.irqEn (h.irqEn he)
  settings hs := by
    obtain ⟨ki, ko⟩ := k.settings (hp ▸ hs)
    obtain ⟨hi, ho⟩ := h.settings hs
    exact ⟨ki.trans hi, ko.trans ho⟩

/-- The frame of a driver operation is one of these. -/
theorem keeps_of_sameRegs {s t : State} (h : SameRegs s t) : Keeps s t where
  par := h.par
  now := h.now.ge
  pending := h.pending
  lastEdge := h.lastEdge
  log := h.log
  logWr := h.logWr
  lastAccDisturber := h.lastAccDisturber
  lastAccNoise := h.lastAccNoise
  lastSrc := h.lastSrc
  keepaliveTs := h.keepaliveTs
  agg := h.agg
  irqEn he := h.irqEn.trans he
  settings _ := ⟨h.irqEn, h.observer⟩

theorem keeps_nextMove (s : State) : Keeps s s.nextMove.2 := by
  obtain ⟨ms, n, h⟩ := nextMove_same s
  rw [h]
  constructor <;> simp

theorem nextMove_phase (s : State) : s.nextMove.2.phase = s.phase := by
  obtain ⟨ms, n, h⟩ := nextMove_same s
  rw [h]

theorem keeps_awake (s : State) : Keeps s (awake s) := by constructor <;> simp

/-- One attempt of a read changes no register of the block, whatever it comes to. -/
theorem sameBlock_of_memRead {s v : State} {r : RegAddr} {n : Nat} {x : Tx (List Byte)} (h : s.memRead r n = (x, v)) :
    SameBlock s v := by
  have hs := memRead_same s r n
  rwa [h] at hs

/-- A bus attempt and what follows it in the same micro-step. -/
theorem keeps_of_sameBlock {s u t : State} (h : SameBlock s u) (k : Keeps u t) : Keeps s t :=
  (keeps_of_sameRegs h.regs).trans h.phase k

/-- Taking a request writes none of these registers; START and SET_OBSERVER are taken only with no operation in progress. -/
theorem accepts_keeps {u t : State} (h : Accepts u t) : Keeps u t := by
  cases h with
  | driver c _ _ => exact keeps_of_sameRegs (drvStart_same u c)
  | start hp _ => constructor <;> simp [hp]
  | setObserver id hp _ => constructor <;> simp [hp]
  | _ => constructor <;> simp [State.refuse]

theorem raise_keeps (u : State) (st : Status) (d : RspData) : Keeps u (u.raise st d) := by constructor <;> simp

theorem returnEvent_keeps (u : State) (ev : Option Event) : Keeps u (u.returnEvent ev) := by
  rcases returnEvent_cases u ev with ⟨_, h⟩ | ⟨_, e, _, h⟩ | ⟨_, _, h⟩ <;> rw [h] <;> constructor <;> simp

theorem stepEntry_keeps (u : State) : Keeps u u.stepEntry := by
  unfold State.stepEntry
  split
  · constructor <;> simp
  · exact raise_keeps _ _ _

theorem stepReadInt_keeps (u : State) : Keeps u u.stepReadInt := by
  unfold State.stepReadInt
  split
  · next heq => exact keeps_of_sameBlock (sameBlock_of_memRead heq) (by constructor <;> simp)
  · next heq => exact keeps_of_sameRegs (sameBlock_of_memRead heq).regs
  · next heq => exact keeps_of_sameBlock (sameBlock_of_memRead heq) (raise_keeps _ _ _)

theorem readEnergyByte_keeps (u : State) (r : RegAddr) : Keeps u (u.readEnergyByte r) := by
  unfold State.readEnergyByte
  split
  · next heq => exact keeps_of_sameBlock (sameBlock_of_memRead heq) (by constructor <;> simp)
  · next heq => exact keeps_of_sameRegs (sameBlock_of_memRead heq).regs
  · next heq => exact keeps_of_sameBlock (sameBlock_of_memRead heq) (raise_keeps _ _ _)

theorem stepObserve_keeps (u : State) : Keeps u u.stepObserve := by
  unfold State.stepObserve
  split
  · next e _ => exact keeps_of_sameBlock (observe_same u e) (by constructor <;> simp)
  · constructor <;> simp

theorem stepBetween_keeps (u : State) : Keeps u u.stepBetween := by
  unfold State.stepBetween
  split <;> constructor <;> simp

/-! ### The four writers of the main context -/

/-- What a micro-step of the main context that begins in `u` writes: nothing, or what one of its four writers writes. -/
inductive Writes (u t : State) : Prop where
  | nothing (h : Keeps u t)
  /-- the consume; the indivisible one is a go (44_event_service.md R162) -/
  | consumed (hj : u.drvJob = none) (hp : u.phase = .sConsume)
      (hgo : u.par.consumeSplit = false →
        u.drainN ≠ u.par.drainCap ∧ u.pending = true ∧ u.par.tDwell ≤ u.now - u.lastEdge)
      (h : Keeps { u with pending := false } t)
  | appended (e : Event) (hp : u.phase = .sAppend) (he : u.work.ev = some e) (h : Keeps (u.append e) t)
  | forwarded (e : Event) (hp : u.phase = .sThrottle) (he : u.work.ev = some e) (h : Keeps (u.markForwarded e) t)
      (hn : t.now = u.now)
  | keptAlive (hp : u.phase = .sKeepalive) (h : Keeps { u with keepaliveTs := u.now } t) (hn : t.now = u.now)

theorem stepConsumeWhole_writes (u : State) (hj : u.drvJob = none) (hp : u.phase = .sConsume) :
    Writes u u.stepConsumeWhole := by
  unfold State.stepConsumeWhole
  split
  · exact .nothing (by constructor <;> simp)
  · next hn =>
    rcases consume_cases u with ⟨hpend, hdwell, hc⟩ | ⟨_, hc⟩
    · rw [hc]; exact .consumed hj hp (fun _ => ⟨hn, hpend, hdwell⟩) (by constructor <;> simp)
    · rw [hc]; exact .nothing (by constructor <;> simp)

theorem stepConsumeSplit_writes (u : State) (hj : u.drvJob = none) (hp : u.phase = .sConsume)
    (hsplit : u.par.consumeSplit = true) : Writes u u.stepConsumeSplit := by
  unfold State.stepConsumeSplit
  split
  · split
    · exact .nothing (by constructor <;> simp)
    · split <;> exact .nothing (by constructor <;> simp)
  · split <;> exact .nothing (by constructor <;> simp)
  · exact .consumed hj hp (by simp [hsplit]) (by constructor <;> simp)

theorem stepConsume_writes (u : State) (hj : u.drvJob = none) (hp : u.phase = .sConsume) : Writes u u.stepConsume := by
  unfold State.stepConsume
  split
  · next h => exact stepConsumeSplit_writes u hj hp h
  · exact stepConsumeWhole_writes u hj hp

theorem stepAppend_writes (u : State) (hp : u.phase = .sAppend) : Writes u u.stepAppend := by
  unfold State.stepAppend
  split
  · next e he => exact .appended e hp he (by constructor <;> simp)
  · exact .nothing (by constructor <;> simp)

theorem stepThrottle_writes (u : State) (hp : u.phase = .sThrottle) : Writes u u.stepThrottle := by
  unfold State.stepThrottle
  split
  · next e he =>
    rcases throttle_cases u e with ⟨_, hs⟩ | ⟨_, ht⟩
    · exact .forwarded e hp he (keeps_of_sameBlock hs (by constructor <;> simp)) hs.now
    · rw [ht]; exact .nothing (by constructor <;> simp)
  · exact .nothing (by constructor <;> simp)

/-- The end of a SERVICE, the keepalive being done: RUN goes on, or the caller is answered. -/
def endService (v : State) : State :=
  if v.running then { v with phase := .rBetween, work := {} } else v.endOp.respond .ok (.count v.drainN)

theorem stepKeepalive_eq (u : State) : u.stepKeepalive = endService u.keepalive := rfl

theorem endService_keeps (v : State) : Keeps v (endService v) := by
  unfold endService
  split <;> constructor <;> simp

theorem endService_now (v : State) : (endService v).now = v.now := by
  unfold endService
  split <;> rfl

theorem stepKeepalive_writes (u : State) (hp : u.phase = .sKeepalive) : Writes u u.stepKeepalive := by
  rw [stepKeepalive_eq]
  rcases keepalive_cases u with ⟨_, hk⟩ | ⟨_, hk⟩
  · have hs := emitPublish_same u u.stateMessage
    have hw : SameBlock { u with keepaliveTs := u.now } u.keepalive := by
      rw [hk]
      exact { hs with keepaliveTs := rfl }
    exact .keptAlive hp (keeps_of_sameBlock hw (endService_keeps _)) ((endService_now _).trans hw.now)
  · rw [hk]; exact .nothing (endService_keeps u)

/-- Every micro-step writes nothing, or is one of the four writers. -/
theorem effect_writes {u t : State} (h : Effect u t) : Writes u t := by
  cases h with
  | idle => exact .nothing (Keeps.refl u)
  | accept r ws t _ _ _ ha =>
    exact .nothing (Keeps.trans (u := { u with waiting := ws }) (by constructor <;> simp) rfl (accepts_keeps ha))
  | driver j _ => exact .nothing (keeps_of_sameRegs (drvStep_same u j))
  | entry _ _ => exact .nothing (stepEntry_keeps u)
  | consume hj hp => exact stepConsume_writes u hj hp
  | sleep _ _ => exact .nothing (by constructor <;> simp [State.stepSleep])
  | readInt _ _ => exact .nothing (stepReadInt_keeps u)
  | lightning c _ _ _ => exact .nothing (by constructor <;> simp)
  | plain k c _ _ _ _ => exact .nothing (returnEvent_keeps _ _)
  | noEvent _ _ => exact .nothing (returnEvent_keeps _ _)
  | dist bs v b _ _ hm => exact .nothing (keeps_of_sameBlock (sameBlock_of_memRead hm) (by constructor <;> simp))
  | energyByte r _ _ => exact .nothing (readEnergyByte_keeps u r)
  | energy bs v en _ _ hm => exact .nothing (keeps_of_sameBlock (sameBlock_of_memRead hm) (returnEvent_keeps _ _))
  | readRetry r v _ _ hm => exact .nothing (keeps_of_sameRegs (sameBlock_of_memRead hm).regs)
  | readError r v n c _ _ hm => exact .nothing (keeps_of_sameBlock (sameBlock_of_memRead hm) (raise_keeps _ _ _))
  | append _ hp => exact stepAppend_writes u hp
  | observe _ _ => exact .nothing (stepObserve_keeps u)
  | throttle _ hp => exact stepThrottle_writes u hp
  | keepalive _ hp => exact stepKeepalive_writes u hp
  | between _ _ => exact .nothing (stepBetween_keeps u)

/-! ### Every step -/

/-- What a step writes: nothing, or what an accepted edge writes, or what a micro-step of the main context writes. -/
inductive StepWrites (s t : State) : Prop where
  | nothing (h : Keeps s t)
  | edge (ha : s.aboutToAcceptEdge) (h : Keeps { s with pending := true, lastEdge := s.now } t)
  | main (hm : s.nextMove.1 = .main) (h : Writes (awake s) t)

/-- An edge is accepted or not whatever stands in the schedule. -/
theorem nextMove_edgeAccepted (s : State) : s.nextMove.2.edgeAccepted = s.edgeAccepted := by
  obtain ⟨ms, n, h⟩ := nextMove_same s
  rw [h]
  rfl

theorem step_writes {s t : State} (h : step s = .next t) : StepWrites s t := by
  have keeps : ∀ {v}, Keeps s.nextMove.2 v → StepWrites s v := fun k =>
    .nothing ((keeps_nextMove s).trans (nextMove_phase s) k)
  have moved := step_moved s t h
  generalize hm : s.nextMove.1 = m at moved
  cases moved with
  | main t he => exact .main hm (effect_writes he)
  | edge ha =>
    refine .edge ⟨hm, (nextMove_edgeAccepted s).symm.trans ha⟩ ?_
    obtain ⟨ms, n, hn⟩ := nextMove_same s
    rw [hn]
    constructor <;> simp
  | cmd w t ha => exact keeps (accepts_keeps ha)
  | driver c t ha => exact keeps (accepts_keeps ha)
  | _ => exact keeps (by constructor <;> simp)

/-! ### The statements -/

/-- Settles O49, by the writers: none of them touches the parameters, and a `main` move only waits for its sleep to end. -/
theorem parametersAreConstantAndTimeNeverDecreases : Obligations.ParametersAreConstantAndTimeNeverDecreases := by
  intro s t h
  have hn : s.now ≤ (awake s).now := (keeps_awake s).now
  cases step_writes h with
  | nothing k => exact ⟨k.par, k.now⟩
  | edge _ k => exact ⟨k.par, k.now⟩
  | main _ hw =>
    cases hw with
    | nothing k | consumed _ _ _ k | appended _ _ _ k | forwarded _ _ _ k _ | keptAlive _ k _ =>
      exact ⟨k.par.trans (awake_par s), hn.trans k.now⟩

/-- A step either is an accepted edge, which sets PENDING and LAST_EDGE, or leaves LAST_EDGE alone; then it leaves PENDING alone
too, or is the main context's consume. -/
theorem step_debounce {s t : State} (h : step s = .next t) :
    (s.aboutToAcceptEdge ∧ t.pending = true ∧ t.lastEdge = s.now) ∨
    (t.lastEdge = s.lastEdge ∧ (t.pending = s.pending ∨
      t.pending = false ∧ s.nextMove.1 = .main ∧ s.phase = .sConsume ∧
        (s.par.consumeSplit = false → s.aboutToConsume))) := by
  cases step_writes h with
  | nothing k => exact .inr ⟨k.lastEdge, .inl k.pending⟩
  | edge ha k => exact .inl ⟨ha, k.pending, k.lastEdge⟩
  | main hm hw =>
    cases hw with
    | consumed hj hp hgo k =>
      simp only [awake_par, awake_drainN, awake_pending, awake_now, awake_lastEdge, awake_drvJob, awake_phase] at hj hp hgo
      refine .inr ⟨by simp [k.lastEdge], .inr ⟨k.pending, hm, hp, fun hs => ?_⟩⟩
      obtain ⟨hn, hpend, hd⟩ := hgo hs
      exact ⟨hm, hj, hp, hn, hpend, hd⟩
    | nothing k | appended _ _ _ k | forwarded _ _ _ k _ | keptAlive _ k _ =>
      exact .inr ⟨by simp [k.lastEdge], .inl (by simp [k.pending])⟩

/-- Settles O50, from the two writers of DebounceState that `step_debounce` names. -/
theorem eachDebounceFieldHasOneWriter : Obligations.EachDebounceFieldHasOneWriter := by
  intro s t h
  rcases step_debounce h with ⟨ha, hp, hl⟩ | ⟨hl, hp | ⟨hp, hm, hc, hgo⟩⟩
  · exact ⟨fun _ => ⟨ha, hp, hl⟩, by simp [hp]⟩
  · exact ⟨by simp [hl, hp], by simp_all⟩
  · exact ⟨by simp [hl, hp], fun _ _ => ⟨hm, hc, hl, hgo⟩⟩

/-- Settles O54: of the writers, the append alone writes the log. -/
theorem onlyAppendChangesTheLog : Obligations.OnlyAppendChangesTheLog := by
  intro s t h
  cases step_writes h with
  | nothing k => exact .inl ⟨k.log, k.logWr⟩
  | edge _ k => exact .inl ⟨k.log, k.logWr⟩
  | main hm hw =>
    cases hw with
    | appended e hp he k =>
      exact .inr ⟨hm, by simpa using hp, e, by simpa using he, by simp [k.log, logAppend], by simp [k.logWr]⟩
    | nothing k | consumed _ _ _ k | forwarded _ _ _ k _ | keptAlive _ k _ =>
      exact .inl ⟨by simp [k.log], by simp [k.logWr]⟩

/-- What is kept is kept of the throttle's registers. -/
theorem Keeps.throttleState {s t : State} (k : Keeps s t) :
    t.lastSrc = s.lastSrc ∧ t.lastAccDisturber = s.lastAccDisturber ∧ t.lastAccNoise = s.lastAccNoise ∧ t.agg = s.agg :=
  ⟨k.lastSrc, k.lastAccDisturber, k.lastAccNoise, k.agg⟩

/-- Settles O55: of the writers, the forward writes the throttle's registers, and it and the keepalive write KEEPALIVE_TS. -/
theorem onlyForwardsChangeTheThrottleState : Obligations.OnlyForwardsChangeTheThrottleState := by
  intro s t h
  cases step_writes h with
  | nothing k => exact ⟨.inl k.throttleState, .inl k.keepaliveTs⟩
  | edge _ k => exact ⟨.inl k.throttleState, .inl k.keepaliveTs⟩
  | main hm hw =>
    cases hw with
    | nothing k | consumed _ _ _ k | appended _ _ _ k =>
      exact ⟨.inl (by simpa using k.throttleState), .inl (by simp [k.keepaliveTs])⟩
    | forwarded e hp he k hn =>
      rw [awake_phase] at hp
      rw [awake_work] at he
      exact ⟨.inr ⟨hm, hp, e, he, by simp [k.lastSrc], by simp [k.agg]⟩,
        .inr ⟨hm, .inl hp, by simp [k.keepaliveTs, hn]⟩⟩
    | keptAlive hp k hn =>
      rw [awake_phase] at hp
      exact ⟨.inl (by simpa using k.throttleState), .inr ⟨hm, .inr hp, by simp [k.keepaliveTs, hn]⟩⟩

/-- What a step keeps of IRQ_EN and OBSERVER. -/
def SettingsKept (s t : State) : Prop :=
  (s.phase ≠ .idle → t.irqEn = s.irqEn ∧ t.observer = s.observer) ∧ (s.irqEn = true → t.irqEn = true)

theorem Keeps.settingsKept {s t : State} (k : Keeps s t) : SettingsKept s t := ⟨k.settings, k.irqEn⟩

/-- Settles O56: none of the writers writes IRQ_EN or OBSERVER, and the requests that do are taken in no operation. -/
theorem settingsAreStableDuringAnOperation : Obligations.SettingsAreStableDuringAnOperation := by
  intro s t h
  cases step_writes h with
  | nothing k => exact k.settingsKept
  | edge _ k => exact k.settingsKept
  | main _ hw =>
    cases hw with
    | nothing k | consumed _ _ _ k | appended _ _ _ k | forwarded _ _ _ k _ | keptAlive _ k _ =>
      simpa [SettingsKept] using k.settingsKept

end Sys2Proof.Proofs
end

section
/-! PROOF. The RingLog: the list is the most recent Events, and the circular buffer of 10_state.md R19 refines it. -/

namespace Sys2Proof.Proofs

open Sys2Proof.Machine Sys2Proof.Laws

/-! ### The list -/

/-- An append to the last `cap` of the Events so far gives the last `cap` of all. -/
theorem logAppend_lastOf (cap : Nat) (es : List Event) (e : Event) (hc : 1 ≤ cap) :
    logAppend cap (es.drop (es.length - cap)) e = (es ++ [e]).drop ((es ++ [e]).length - cap) := by
  unfold logAppend
  simp only [List.length_drop, List.length_append, List.length_singleton]
  split
  · next hfull => rw [List.drop_drop, List.drop_append_of_le_length (by omega),
      show es.length + 1 - cap = es.length - cap + 1 by omega]
  · next hroom => rw [show es.length - cap = 0 by omega, show es.length + 1 - cap = 0 by omega]; rfl

/-- The log after any number of appends to an empty one. -/
theorem foldl_logAppend (cap : Nat) (es : List Event) (hc : 1 ≤ cap) :
    es.foldl (logAppend cap) [] = es.drop (es.length - cap) := by
  induction es using List.reverseRecOn with
  | nil => simp
  | append_singleton es e ih => rw [List.foldl_append, ih]; exact logAppend_lastOf cap es e hc

/-- Settles O60, by induction on the Events from the last one back. -/
theorem tailReturnsTheMostRecentCapacityEvents : Obligations.TailReturnsTheMostRecentCapacityEvents := by
  intro cap es hc log
  have hlog : log = es.drop (es.length - cap) := foldl_logAppend cap es hc
  have hlen : log.length ≤ cap := by rw [hlog, List.length_drop]; omega
  refine ⟨hlen, ?_⟩
  rw [tailOf, Nat.sub_eq_zero_of_le hlen, List.drop_zero, hlog]

/-! ### The circular buffer -/

/-- Before the buffer is full its slots are the log itself. -/
theorem logMem_of_room {s : State} (h : s.log.length < s.par.logCapacity) : s.logMem = s.log := if_pos h

/-- In a full buffer the slots from LOG_WR on hold the oldest Events, and those below it the newest. -/
theorem logMem_of_full {s : State} (h : s.log.length = s.par.logCapacity) (hw : s.logWr < s.par.logCapacity) (i : Nat)
    (hi : i < s.par.logCapacity) :
    s.logMem[i]? = if i < s.logWr then s.log[s.par.logCapacity - s.logWr + i]? else s.log[i - s.logWr]? := by
  have hdrop : (s.log.drop (s.par.logCapacity - s.logWr)).length = s.logWr := by rw [List.length_drop]; omega
  rw [State.logMem, if_neg (by omega), List.getElem?_append, hdrop]
  split
  · rw [List.getElem?_drop]
  · rw [List.getElem?_take, if_pos (by omega)]

/-- The buffer has as many slots in use as the log has Events. -/
theorem logMem_length (s : State) : s.logMem.length = s.log.length := by
  unfold State.logMem
  split
  · rfl
  · rw [List.length_append, List.length_drop, List.length_take]; omega

/-- The slot of each Event (10_state.md R19). -/
theorem logMem_slot {s : State} (h : s.logOk) (j : Nat) (hj : j < s.log.length) :
    s.logMem[(s.logWr + s.par.logCapacity - s.log.length + j) % s.par.logCapacity]? = s.log[j]? := by
  obtain ⟨hle, hwr, hroom⟩ := h
  rcases Nat.lt_or_eq_of_le hle with hlt | hfull
  · rw [logMem_of_room hlt, hroom hlt, Nat.add_sub_cancel_left, Nat.add_mod_left, Nat.mod_eq_of_lt (by omega)]
  · rw [logMem_of_full hfull hwr _ (Nat.mod_lt _ (by omega)), hfull, Nat.add_sub_cancel]
    by_cases hwrap : s.logWr + j < s.par.logCapacity
    · rw [Nat.mod_eq_of_lt hwrap, if_neg (by omega), Nat.add_sub_cancel_left]
    · rw [Nat.mod_eq_sub_mod (by omega), Nat.mod_eq_of_lt (by omega), if_pos (by omega)]
      congr 1
      omega

/-- The length of the log after an append. -/
theorem append_log_length (s : State) (e : Event) (h : s.log.length ≤ s.par.logCapacity) (hc : 1 ≤ s.par.logCapacity) :
    (s.append e).log.length = if s.log.length < s.par.logCapacity then s.log.length + 1 else s.log.length := by
  rw [append_log, logAppend]
  split
  · rw [if_neg (by omega), List.length_append, List.length_drop, List.length_singleton]; omega
  · rw [if_pos (by omega), List.length_append, List.length_singleton]

/-- An append keeps the log within its capacity, and LOG_WR at the slot the next append fills. -/
theorem append_logOk {s : State} (e : Event) (hc : 1 ≤ s.par.logCapacity) (h : s.logOk) : (s.append e).logOk := by
  obtain ⟨hle, hwr, hroom⟩ := h
  have hlen := append_log_length s e hle hc
  refine ⟨logAppend_length _ _ _ hc hle, Nat.mod_lt _ hc, fun hlt => ?_⟩
  rw [append_par] at hlt
  rw [append_logWr, hlen]
  split at hlen
  · next hl => rw [if_pos hl, hroom hl, Nat.mod_eq_of_lt (by omega)]
  · omega

/-- An append to a buffer with room fills the next slot; with the last one filled, LOG_WR is 0 and the slots are the log still. -/
theorem append_logMem_of_room {s : State} (e : Event) (hwr : s.logWr = s.log.length)
    (hroom : s.log.length < s.par.logCapacity) : (s.append e).logMem = s.log ++ [e] := by
  have hlog : (s.append e).log = s.log ++ [e] := by rw [append_log, logAppend, if_neg (by omega)]
  have hlen : (s.append e).log.length = s.log.length + 1 := by rw [hlog, List.length_append, List.length_singleton]
  by_cases hlast : s.log.length + 1 < s.par.logCapacity
  · rw [logMem_of_room (by rw [hlen]; exact hlast), hlog]
  · have hwr0 : (s.append e).logWr = 0 := by
      rw [append_logWr, hwr, show s.log.length + 1 = s.par.logCapacity by omega, Nat.mod_self]
    rw [State.logMem, append_par, if_neg (by omega), hwr0, Nat.sub_zero, List.drop_of_length_le (by omega),
      List.take_of_length_le (by omega), hlog, List.nil_append]

/-- The log after an append to a full one: every Event moves one place down, and the new one comes last. -/
theorem append_log_of_full {s : State} (e : Event) (hfull : s.log.length = s.par.logCapacity) (j : Nat) :
    (j + 1 < s.par.logCapacity → (s.append e).log[j]? = s.log[j + 1]?) ∧
    (j + 1 = s.par.logCapacity → (s.append e).log[j]? = some e) := by
  have hlog : (s.append e).log = s.log.drop 1 ++ [e] := by rw [append_log, logAppend, if_pos hfull]
  constructor
  · intro hj
    rw [hlog, List.getElem?_append_left (by rw [List.length_drop]; omega), List.getElem?_drop, Nat.add_comm]
  · intro hj
    have hl : (s.log.drop 1).length = j := by rw [List.length_drop]; omega
    rw [hlog, ← hl, List.getElem?_concat_length]

/-- An append to a full buffer overwrites the slot of the oldest Event and leaves the others. -/
theorem append_logMem_of_full {s : State} (e : Event) (hfull : s.log.length = s.par.logCapacity)
    (hwr : s.logWr < s.par.logCapacity) (i : Nat) (hi : i < s.par.logCapacity) :
    (s.append e).logMem[i]? = if i = s.logWr then some e else s.logMem[i]? := by
  have hold := fun j => (append_log_of_full e hfull j).1
  have hnew := fun j => (append_log_of_full e hfull j).2
  have hlen : (s.append e).log.length = (s.append e).par.logCapacity := by
    rw [append_log_length s e hfull.le (by omega), if_neg (by omega), append_par, hfull]
  have hmem := logMem_of_full hlen (Nat.mod_lt _ (by omega)) i hi
  rw [append_par, append_logWr] at hmem
  rw [hmem, logMem_of_full hfull hwr i hi]
  by_cases hwrap : s.logWr + 1 < s.par.logCapacity
  · rw [Nat.mod_eq_of_lt hwrap]
    rcases Nat.lt_trichotomy i s.logWr with hlt | rfl | hgt
    · rw [if_pos (by omega), if_neg hlt.ne, if_pos hlt, hold _ (by omega)]
      congr 1
      omega
    · rw [if_pos (by omega), if_pos rfl, hnew _ (by omega)]
    · rw [if_neg (by omega), if_neg hgt.ne', if_neg (by omega), hold _ (by omega)]
      congr 1
      omega
  · rw [show s.logWr + 1 = s.par.logCapacity by omega, Nat.mod_self, if_neg (Nat.not_lt_zero i), Nat.sub_zero]
    by_cases heq : i = s.logWr
    · rw [if_pos heq, hnew _ (by omega)]
    · rw [if_neg heq, if_pos (by omega), hold _ (by omega)]
      congr 1
      omega

/-- What the slots hold after an append: slot LOG_WR the new Event, and every other slot what it held. -/
theorem append_logMem {s : State} (e : Event) (h : s.logOk) (i : Nat) :
    (s.append e).logMem[i]? = if i = s.logWr then some e else s.logMem[i]? := by
  obtain ⟨hle, hwr, hroom⟩ := h
  rcases Nat.lt_or_eq_of_le hle with hlt | hfull
  · rw [append_logMem_of_room e (hroom hlt) hlt, logMem_of_room hlt, hroom hlt]
    split
    · next heq => rw [heq, List.getElem?_concat_length]
    · next hne =>
      rcases Nat.lt_or_gt_of_ne hne with hin | hout
      · exact List.getElem?_append_left hin
      · rw [List.getElem?_eq_none (by simp; omega), List.getElem?_eq_none (by omega)]
  · by_cases hi : i < s.par.logCapacity
    · exact append_logMem_of_full e hfull hwr i hi
    · have hlen := append_log_length s e hle (by omega)
      rw [if_neg (by omega)] at hlen
      rw [if_neg (by omega), List.getElem?_eq_none (by rw [logMem_length]; omega),
        List.getElem?_eq_none (by rw [logMem_length]; omega)]

/-- Settles O59: each clause is one of the lemmas above. -/
theorem circularBufferRefinesTheLog : Obligations.CircularBufferRefinesTheLog := by
  intro s e hc h cap t
  refine ⟨fun j hj => (logMem_slot h j hj).symm, append_logOk e hc h, rfl, append_log_length s e h.1 hc, ?_, ?_⟩
  · rw [append_logMem e h, if_pos rfl]
  · intro i hi
    rw [append_logMem e h, if_neg hi]

end Sys2Proof.Proofs
end

section
/-! PROOF. The invariant of the machine, in three parts: the registers, whose writers are known; the operation in hand; and the
sensor's register space. -/

namespace Sys2Proof.Proofs

open Sys2Proof.Machine Sys2Proof.Laws

/-! ### The registers -/

/-- The part of the invariant that speaks of the registers alone. -/
structure RegistersOk (s : State) : Prop where
  sizes : s.sizesOk
  log : s.logOk
  lastEdge : s.lastEdge ≤ s.now
  keepaliveTs : s.keepaliveTs ≤ s.now
  lastAccDisturber : s.lastAccDisturber ≤ s.now
  lastAccNoise : s.lastAccNoise ≤ s.now
  events : ∀ e ∈ s.log, e.ts ≤ s.now ∧ e.wellFormed = true
  capture : s.captureOk

/-- What is kept is kept well: time only goes on, and IRQ_EN stays. -/
theorem RegistersOk.of_keeps {s t : State} (r : RegistersOk s) (k : Keeps s t) : RegistersOk t where
  sizes := by rw [State.sizesOk, k.par]; exact r.sizes
  log := by rw [State.logOk, k.par, k.log, k.logWr]; exact r.log
  lastEdge := k.lastEdge.trans_le (r.lastEdge.trans k.now)
  keepaliveTs := k.keepaliveTs.trans_le (r.keepaliveTs.trans k.now)
  lastAccDisturber := k.lastAccDisturber.trans_le (r.lastAccDisturber.trans k.now)
  lastAccNoise := k.lastAccNoise.trans_le (r.lastAccNoise.trans k.now)
  events e he := by
    rw [k.log] at he
    obtain ⟨hts, hwf⟩ := r.events e he
    exact ⟨hts.trans k.now, hwf⟩
  capture hp := k.irqEn (r.capture (k.pending ▸ hp))

/-- The Event in hand is as the block makes Events, and from no later than now. -/
def EventOk (s : State) : Prop := ∀ e ∈ s.work.ev, e.ts ≤ s.now ∧ e.wellFormed = true

theorem RegistersOk.append {u : State} (r : RegistersOk u) {e : Event} (hts : e.ts ≤ u.now) (hwf : e.wellFormed = true) :
    RegistersOk (u.append e) where
  sizes := r.sizes
  log := append_logOk e r.sizes.1 r.log
  lastEdge := r.lastEdge
  keepaliveTs := r.keepaliveTs
  lastAccDisturber := r.lastAccDisturber
  lastAccNoise := r.lastAccNoise
  events e' he := by
    rw [append_log, logAppend, List.mem_append, List.mem_singleton] at he
    rcases he with hold | rfl
    · split at hold
      · exact r.events e' (List.mem_of_mem_drop hold)
      · exact r.events e' hold
    · exact ⟨hts, hwf⟩
  capture := r.capture

theorem RegistersOk.markForwarded {u : State} (r : RegistersOk u) {e : Event} (hts : e.ts ≤ u.now) :
    RegistersOk (u.markForwarded e) where
  sizes := r.sizes
  log := r.log
  lastEdge := r.lastEdge
  keepaliveTs := le_refl u.now
  lastAccDisturber := by unfold State.markForwarded; dsimp only; split; exacts [hts, r.lastAccDisturber]
  lastAccNoise := by unfold State.markForwarded; dsimp only; split; exacts [hts, r.lastAccNoise]
  events := r.events
  capture := r.capture

theorem RegistersOk.consumed {u : State} (r : RegistersOk u) : RegistersOk { u with pending := false } :=
  { r with capture := fun h => absurd h Bool.false_ne_true }

theorem RegistersOk.keptAlive {u : State} (r : RegistersOk u) : RegistersOk { u with keepaliveTs := u.now } :=
  { r with keepaliveTs := le_refl u.now }

/-- Every writer of the main context writes what the invariant allows. -/
theorem RegistersOk.of_writes {u t : State} (r : RegistersOk u) (hev : EventOk u) (h : Writes u t) : RegistersOk t := by
  cases h with
  | nothing k => exact r.of_keeps k
  | consumed _ _ _ k => exact r.consumed.of_keeps k
  | appended e _ he k =>
    obtain ⟨hts, hwf⟩ := hev e he
    exact (r.append hts hwf).of_keeps k
  | forwarded e _ he k _ => exact (r.markForwarded (hev e he).1).of_keeps k
  | keptAlive _ k _ => exact r.keptAlive.of_keeps k

/-- An accepted edge is taken only with the callback registered. -/
theorem RegistersOk.edge {s : State} (r : RegistersOk s) (ha : s.edgeAccepted = true) :
    RegistersOk { s with pending := true, lastEdge := s.now } :=
  { r with
    lastEdge := le_refl s.now
    capture := fun _ => by
      rw [State.edgeAccepted, Bool.and_eq_true] at ha
      exact ha.1 }

/-! ### The operation in hand -/

/-- The part of the invariant that speaks of the sequencer and of the operation in progress. -/
structure HandOk (s : State) : Prop where
  ts : s.work.ts ≤ s.now
  event : EventOk s
  code : s.phase = .sReadDist ∨ s.phase = .sReadEnergy → classify s.work.code = some .lightning
  drain : s.drainN ≤ s.par.drainCap
  split : s.work.split ≠ .readPending → s.drainN < s.par.drainCap
  running : s.running = true → s.phase ≠ .idle
  byHost : s.work.byHost = true → s.running = false
  job : s.drvJob.isSome = true → s.phase = .idle

/-- The three parts are the invariant. -/
theorem inv_iff (s : State) : s.Inv ↔ RegistersOk s ∧ HandOk s ∧ s.sensorRegs.wf = true := by
  constructor
  · rintro ⟨sizes, memory, log, ⟨le, ka, ld, ln, wts, lts, ets⟩, ⟨lwf, ewf, code⟩, ⟨dr, sp⟩,
      ⟨run, host, job⟩, cap⟩
    exact ⟨⟨sizes, log, le, ka, ld, ln, fun e he => ⟨lts e he, lwf e he⟩, cap⟩,
      ⟨wts, fun e he => ⟨ets e he, ewf e he⟩, code, dr, sp, run, host, job⟩, memory⟩
  · rintro ⟨⟨sizes, log, le, ka, ld, ln, ev, cap⟩, ⟨wts, hev, code, dr, sp, run, host, job⟩, memory⟩
    exact ⟨sizes, memory, log, ⟨le, ka, ld, ln, wts, fun e he => (ev e he).1, fun e he => (hev e he).1⟩,
      ⟨fun e he => (ev e he).2, fun e he => (hev e he).2, code⟩, ⟨dr, sp⟩, ⟨run, host, job⟩, cap⟩

/-- A state in which nothing of the operation in hand differs, except that a driver operation may begin, go on or end. -/
theorem HandOk.of_same {u t : State} (h : HandOk u) (s : SameRegs u t) (hj : t.drvJob.isSome = true → u.phase = .idle) :
    HandOk t where
  ts := by rw [s.work, s.now]; exact h.ts
  event := by rw [EventOk, s.work, s.now]; exact h.event
  code := by rw [s.work, s.phase]; exact h.code
  drain := by rw [s.drainN, s.par]; exact h.drain
  split := by rw [s.work, s.drainN, s.par]; exact h.split
  running := by rw [s.running, s.phase]; exact h.running
  byHost := by rw [s.work, s.running]; exact h.byHost
  job hs := s.phase.trans (hj hs)

theorem HandOk.of_sameBlock {u t : State} (h : HandOk u) (s : SameBlock u t) : HandOk t :=
  h.of_same s.regs (s.drvJob ▸ h.job)

/-- With the local values cleared, only DRAIN_N and the phase are left to say. -/
theorem handOk_of_cleared {t : State} (hw : t.work = {}) (hd : t.drainN ≤ t.par.drainCap)
    (hp : t.phase ≠ .sReadDist ∧ t.phase ≠ .sReadEnergy) (hr : t.running = true → t.phase ≠ .idle)
    (hj : t.drvJob = none) : HandOk t where
  ts := by simp [hw]
  event := by simp [EventOk, hw]
  code := by simp [hp]
  drain := hd
  split := by simp [hw]
  running := hr
  byHost := by simp [hw]
  job := by simp [hj]

/-- An operation that goes on: the Event in hand, the stage of the consume and the caller stay, and a code that is read for is
Lightning's. -/
theorem HandOk.goesOn {u : State} (h : HandOk u) (w : Work) (p : Phase) (hj : u.drvJob = none) (hts : w.ts ≤ u.now)
    (hev : w.ev = u.work.ev) (hs : w.split = u.work.split) (hb : w.byHost = u.work.byHost) (hp : p ≠ .idle)
    (hc : p = .sReadDist ∨ p = .sReadEnergy → classify w.code = some .lightning) :
    HandOk { u with phase := p, work := w } where
  ts := hts
  event e he := h.event e (hev ▸ he)
  code := hc
  drain := h.drain
  split hne := h.split (hs ▸ hne)
  running _ := hp
  byHost ht := h.byHost (hb ▸ ht)
  job hs := by simp [hj] at hs

/-- An operation that goes on with its local values as they are. -/
theorem HandOk.goesTo {u : State} (h : HandOk u) (p : Phase) (hj : u.drvJob = none) (hp : p ≠ .idle)
    (hc : p ≠ .sReadDist ∧ p ≠ .sReadEnergy) : HandOk { u with phase := p } :=
  h.goesOn u.work p hj h.ts rfl rfl rfl hp (by simp [hc])

theorem raise_handOk {u : State} (h : HandOk u) (hj : u.drvJob = none) (st : Status) (d : RspData) :
    HandOk (u.raise st d) :=
  handOk_of_cleared rfl h.drain (by simp) (by simp) hj

theorem exitDrain_handOk {u : State} (h : HandOk u) (hj : u.drvJob = none) : HandOk u.exitDrain :=
  handOk_of_cleared rfl h.drain (by simp) (by simp) hj

/-- A capture is counted below the cap. -/
theorem consumed_handOk {u : State} (hd : u.drainN < u.par.drainCap) (hj : u.drvJob = none) : HandOk u.consumed :=
  handOk_of_cleared rfl hd (by simp) (by simp) hj

/-- What READ_EVENT returns to the drain is the next Event in hand; a host's READ_EVENT is no part of a RUN. -/
theorem returnEvent_handOk {u : State} (h : HandOk u) (hj : u.drvJob = none) (ev : Option Event)
    (hev : ∀ e ∈ ev, e.ts ≤ u.now ∧ e.wellFormed = true) : HandOk (u.returnEvent ev) := by
  rcases returnEvent_cases u ev with ⟨hb, hr⟩ | ⟨hb, e, rfl, hr⟩ | ⟨hb, rfl, hr⟩ <;> rw [hr]
  · exact handOk_of_cleared rfl h.drain (by simp) (by simp [h.byHost hb]) hj
  · exact ⟨Nat.zero_le _, hev, by simp, h.drain, by simp, by simp, by simp, by simp [hj]⟩
  · exact handOk_of_cleared rfl h.drain (by simp) (by simp) hj

/-- A Disturber or Noise Event is well formed, and from now. -/
theorem plainEvent_ok (u : State) (k : Kind) (c : Code4) (hc : classify c = some k) (hk : k ≠ .lightning) :
    (u.plainEvent k c).ts ≤ u.now ∧ (u.plainEvent k c).wellFormed = true :=
  ⟨le_refl u.now, by simp [Event.wellFormed, State.plainEvent, hc, hk]⟩

/-- The Event of a Lightning code is well formed, and from the time of its classification. -/
theorem lightningEvent_ok (u : State) (en : BitVec 21) (hc : classify u.work.code = some .lightning)
    (hts : u.work.ts ≤ u.now) : (u.lightningEvent en).ts ≤ u.now ∧ (u.lightningEvent en).wellFormed = true :=
  ⟨hts, by simp [Event.wellFormed, State.lightningEvent, hc]⟩

/-- Taking a request: an operation begins with its local values cleared, and only when none is in progress. -/
theorem accepts_handOk {u t : State} (h : HandOk u) (ha : Accepts u t) : HandOk t := by
  cases ha with
  | waits | refused | start | stop | setObserver | tail => exact { h with }
  | service _ hj => exact handOk_of_cleared rfl h.drain (by simp) (by simp) hj
  | run _ hj => exact handOk_of_cleared rfl h.drain (by simp) (by simp) hj
  | readEvent d hp hj _ =>
    have hr : u.running = false := Bool.eq_false_iff.mpr fun hr => h.running hr hp
    exact ⟨Nat.zero_le _, by simp [EventOk], by simp, h.drain, by simp, by simp, fun _ => hr, by simp [hj]⟩
  | notReady _ hj _ => exact raise_handOk h hj _ _
  | driver c hp _ => exact h.of_same (drvStart_same u c) fun _ => hp

theorem stepEntry_handOk {u : State} (h : HandOk u) (hj : u.drvJob = none) : HandOk u.stepEntry := by
  unfold State.stepEntry
  split
  · exact handOk_of_cleared rfl (Nat.zero_le _) (by simp) (by simp) hj
  · exact raise_handOk h hj _ _

theorem stepConsumeWhole_handOk {u : State} (h : HandOk u) (hj : u.drvJob = none) : HandOk u.stepConsumeWhole := by
  unfold State.stepConsumeWhole
  split
  · exact exitDrain_handOk h hj
  · next hn =>
    rcases consume_cases u with ⟨_, _, hc⟩ | ⟨_, hc⟩ <;> rw [hc]
    · exact consumed_handOk (Nat.lt_of_le_of_ne h.drain hn) hj
    · exact exitDrain_handOk h hj

/-- The cap is checked at the first micro-step of a split consume, and the count follows at the third. -/
theorem stepConsumeSplit_handOk {u : State} (h : HandOk u) (hj : u.drvJob = none) : HandOk u.stepConsumeSplit := by
  unfold State.stepConsumeSplit
  split
  · split
    · exact exitDrain_handOk h hj
    · next hn =>
      split
      · exact { h with split := fun _ => Nat.lt_of_le_of_ne h.drain hn }
      · exact exitDrain_handOk h hj
  · next hstage =>
    split
    · exact { h with split := fun _ => h.split (by simp [hstage]) }
    · exact exitDrain_handOk h hj
  · next hstage => exact consumed_handOk (h.split (by simp [hstage])) hj

theorem stepConsume_handOk {u : State} (h : HandOk u) (hj : u.drvJob = none) : HandOk u.stepConsume := by
  unfold State.stepConsume
  split
  · exact stepConsumeSplit_handOk h hj
  · exact stepConsumeWhole_handOk h hj

/-- After one attempt of a read the operation in hand is as it was. -/
theorem memRead_handOk {u v : State} {r : RegAddr} {n : Nat} {x : Tx (List Byte)} (h : HandOk u) (hj : u.drvJob = none)
    (hm : u.memRead r n = (x, v)) : HandOk v ∧ v.drvJob = none :=
  ⟨h.of_sameBlock (sameBlock_of_memRead hm), (sameBlock_of_memRead hm).drvJob.trans hj⟩

theorem stepReadInt_handOk {u : State} (h : HandOk u) (hj : u.drvJob = none) : HandOk u.stepReadInt := by
  unfold State.stepReadInt
  split
  · next hm =>
    obtain ⟨hv, hvj⟩ := memRead_handOk h hj hm
    exact hv.goesOn _ _ hvj hv.ts rfl rfl rfl (by simp) (by simp)
  · next hm => exact (memRead_handOk h hj hm).1
  · next hm =>
    obtain ⟨hv, hvj⟩ := memRead_handOk h hj hm
    exact raise_handOk hv hvj _ _

theorem readEnergyByte_handOk {u : State} (h : HandOk u) (hj : u.drvJob = none) (r : RegAddr) :
    HandOk (u.readEnergyByte r) := by
  unfold State.readEnergyByte
  split
  · next hm => exact { (memRead_handOk h hj hm).1 with }
  · next hm => exact (memRead_handOk h hj hm).1
  · next hm =>
    obtain ⟨hv, hvj⟩ := memRead_handOk h hj hm
    exact raise_handOk hv hvj _ _

theorem append_handOk {u : State} (h : HandOk u) (e : Event) : HandOk (u.append e) := { h with }

theorem stepAppend_handOk {u : State} (h : HandOk u) (hj : u.drvJob = none) : HandOk u.stepAppend := by
  unfold State.stepAppend
  split
  · next e _ => exact (append_handOk h e).goesTo _ hj (by simp) (by simp)
  · exact h.goesTo _ hj (by simp) (by simp)

theorem stepObserve_handOk {u : State} (h : HandOk u) (hj : u.drvJob = none) : HandOk u.stepObserve := by
  unfold State.stepObserve
  split
  · next e _ =>
    have hs := observe_same u e
    exact (h.of_sameBlock hs).goesTo _ (hs.drvJob.trans hj) (by simp) (by simp)
  · exact h.goesTo _ hj (by simp) (by simp)

/-- Neither a forward nor a suppressed Event touches the operation in hand. -/
theorem throttle_handOk {u : State} (h : HandOk u) (e : Event) :
    HandOk (u.throttle e) ∧ (u.throttle e).drvJob = u.drvJob := by
  rcases throttle_cases u e with ⟨_, hs⟩ | ⟨_, ht⟩
  · have hmark : HandOk (u.markForwarded e) := { h with }
    exact ⟨hmark.of_sameBlock hs, hs.drvJob⟩
  · rw [ht]; exact ⟨h, rfl⟩

theorem stepThrottle_handOk {u : State} (h : HandOk u) (hj : u.drvJob = none) : HandOk u.stepThrottle := by
  unfold State.stepThrottle
  split
  · next e _ =>
    obtain ⟨ht, htj⟩ := throttle_handOk h e
    exact handOk_of_cleared rfl ht.drain (by simp) (by simp) (htj.trans hj)
  · exact h.goesTo _ hj (by simp) (by simp)

theorem keepalive_handOk {u : State} (h : HandOk u) : HandOk u.keepalive ∧ u.keepalive.drvJob = u.drvJob := by
  rcases keepalive_cases u with ⟨_, hk⟩ | ⟨_, hk⟩ <;> rw [hk]
  · have hs := emitPublish_same u u.stateMessage
    exact ⟨{ h.of_sameBlock hs with }, hs.drvJob⟩
  · exact ⟨h, rfl⟩

theorem stepKeepalive_handOk {u : State} (h : HandOk u) (hj : u.drvJob = none) : HandOk u.stepKeepalive := by
  obtain ⟨hk, hkj⟩ := keepalive_handOk h
  rw [stepKeepalive_eq, endService]
  split
  · exact handOk_of_cleared rfl hk.drain (by simp) (by simp) (hkj.trans hj)
  · next hr => exact handOk_of_cleared rfl hk.drain (by simp) (by simp [hr]) (hkj.trans hj)

theorem stepBetween_handOk {u : State} (h : HandOk u) (hj : u.drvJob = none) : HandOk u.stepBetween := by
  unfold State.stepBetween
  split
  · exact handOk_of_cleared rfl h.drain (by simp) (by simp) hj
  · exact h.goesTo _ hj (by simp) (by simp)

/-- Every micro-step of the main context leaves an operation in hand that is in order. -/
theorem effect_handOk {u t : State} (h : HandOk u) (he : Effect u t) : HandOk t := by
  cases he with
  | idle => exact h
  | accept r ws _ _ _ _ ha => exact accepts_handOk (u := { u with waiting := ws }) { h with } ha
  | driver j hj => exact h.of_same (drvStep_same u j) fun _ => h.job (by simp [hj])
  | entry hj _ => exact stepEntry_handOk h hj
  | consume hj _ => exact stepConsume_handOk h hj
  | sleep hj _ => exact h.goesTo _ hj (by simp) (by simp)
  | readInt hj _ => exact stepReadInt_handOk h hj
  | lightning c hj _ hc => exact h.goesOn _ _ hj (le_refl u.now) rfl rfl rfl (by simp) (fun _ => hc)
  | plain k c hj _ hc hk =>
    exact returnEvent_handOk h hj _ fun e he => Option.mem_some_iff.mp he ▸ plainEvent_ok u k c hc hk
  | noEvent hj _ => exact returnEvent_handOk h hj _ (by simp)
  | dist bs v b hj hp hm =>
    obtain ⟨hv, hvj⟩ := memRead_handOk h hj hm
    have hvp : v.phase = .sReadDist := (sameBlock_of_memRead hm).phase.trans hp
    exact hv.goesOn _ _ hvj hv.ts rfl rfl rfl (by simp) (fun _ => hv.code (.inl hvp))
  | energyByte r hj _ => exact readEnergyByte_handOk h hj r
  | energy bs v en hj hp hm =>
    obtain ⟨hv, hvj⟩ := memRead_handOk h hj hm
    have hvp : v.phase = .sReadEnergy := (sameBlock_of_memRead hm).phase.trans hp
    exact returnEvent_handOk hv hvj _ fun e he =>
      Option.mem_some_iff.mp he ▸ lightningEvent_ok v en (hv.code (.inr hvp)) hv.ts
  | readRetry r v hj _ hm => exact (memRead_handOk h hj hm).1
  | readError r v n c hj _ hm =>
    obtain ⟨hv, hvj⟩ := memRead_handOk h hj hm
    exact raise_handOk hv hvj _ _
  | append hj _ => exact stepAppend_handOk h hj
  | observe hj _ => exact stepObserve_handOk h hj
  | throttle hj _ => exact stepThrottle_handOk h hj
  | keepalive hj _ => exact stepKeepalive_handOk h hj
  | between hj _ => exact stepBetween_handOk h hj

/-- Time that passes changes nothing of it. -/
theorem HandOk.later {u : State} (h : HandOk u) {n : Nat} (hn : u.now ≤ n) : HandOk { u with now := n } :=
  { h with
    ts := h.ts.trans hn
    event := fun e he => ⟨(h.event e he).1.trans hn, (h.event e he).2⟩ }

/-- Every move leaves an operation in hand that is in order; most moves of the environment do not touch it. -/
theorem moved_handOk {u t : State} {m : Move} (h : HandOk u) (hm : Moved u m t) : HandOk t := by
  cases hm with
  | main _ he =>
    have hwake : HandOk u.wake := h.later (le_max_left u.now u.wakeAt)
    exact effect_handOk hwake he
  | advance d => exact h.later (Nat.le_add_right _ _)
  | cmd _ _ ha | driver _ _ ha => exact accepts_handOk h ha
  | _ => exact { h with }

/-! ### The sensor's register space -/

theorem accepts_wf {u t : State} (h : u.sensorRegs.wf = true) (ha : Accepts u t) : t.sensorRegs.wf = true := by
  cases ha with
  | driver c _ _ => exact drvStart_wf u c h
  | _ => exact h

theorem wf_of_memRead {u v : State} {r : RegAddr} {n : Nat} {x : Tx (List Byte)} (h : u.sensorRegs.wf = true)
    (hm : u.memRead r n = (x, v)) : v.sensorRegs.wf = true := by
  have hw := memRead_wf u r n h
  rwa [hm] at hw

theorem returnEvent_regs (u : State) (ev : Option Event) : (u.returnEvent ev).sensorRegs = u.sensorRegs := by
  rcases returnEvent_cases u ev with ⟨_, h⟩ | ⟨_, e, _, h⟩ | ⟨_, _, h⟩
  · rw [h]; rfl
  · rw [h]
  · rw [h]

theorem stepEntry_regs (u : State) : u.stepEntry.sensorRegs = u.sensorRegs := by
  unfold State.stepEntry
  split <;> rfl

theorem stepConsume_regs (u : State) : u.stepConsume.sensorRegs = u.sensorRegs := by
  have hwhole : u.stepConsumeWhole.sensorRegs = u.sensorRegs := by
    unfold State.stepConsumeWhole
    rcases consume_cases u with ⟨_, _, hc⟩ | ⟨_, hc⟩ <;> rw [hc] <;> split <;> rfl
  have hsplit : u.stepConsumeSplit.sensorRegs = u.sensorRegs := by
    unfold State.stepConsumeSplit
    cases u.work.split with
    | readPending => dsimp only; split; rfl; split <;> rfl
    | compare => dsimp only; split <;> rfl
    | clear => rfl
  unfold State.stepConsume
  split
  · exact hsplit
  · exact hwhole

theorem stepAppend_regs (u : State) : u.stepAppend.sensorRegs = u.sensorRegs := by
  unfold State.stepAppend
  split <;> rfl

theorem stepObserve_regs (u : State) : u.stepObserve.sensorRegs = u.sensorRegs := by
  unfold State.stepObserve
  split
  · exact observe_regs _ _
  · rfl

theorem stepThrottle_regs (u : State) : u.stepThrottle.sensorRegs = u.sensorRegs := by
  unfold State.stepThrottle
  split
  · exact throttle_regs _ _
  · rfl

theorem stepKeepalive_regs (u : State) : u.stepKeepalive.sensorRegs = u.sensorRegs := by
  have hend : ∀ v : State, (endService v).sensorRegs = v.sensorRegs := by
    intro v
    unfold endService
    split <;> rfl
  rw [stepKeepalive_eq, hend]
  rcases keepalive_cases u with ⟨_, hk⟩ | ⟨_, hk⟩ <;> rw [hk]
  exact emitPublish_regs _ _

theorem stepBetween_regs (u : State) : u.stepBetween.sensorRegs = u.sensorRegs := by
  unfold State.stepBetween
  split <;> rfl

theorem stepReadInt_wf {u : State} (h : u.sensorRegs.wf = true) : u.stepReadInt.sensorRegs.wf = true := by
  unfold State.stepReadInt
  split
  all_goals
    next hm =>
    have hv := wf_of_memRead h hm
    exact hv

theorem readEnergyByte_wf {u : State} (h : u.sensorRegs.wf = true) (r : RegAddr) :
    (u.readEnergyByte r).sensorRegs.wf = true := by
  unfold State.readEnergyByte
  split
  all_goals
    next hm =>
    have hv := wf_of_memRead h hm
    exact hv

/-- Only the bus touches the sensor's registers in a micro-step of the main context. -/
theorem effect_wf {u t : State} (h : u.sensorRegs.wf = true) (he : Effect u t) : t.sensorRegs.wf = true := by
  cases he with
  | idle | sleep | lightning => exact h
  | accept r ws _ _ _ _ ha => exact accepts_wf (u := { u with waiting := ws }) h ha
  | driver j _ => exact drvStep_wf u j h
  | entry => rwa [stepEntry_regs]
  | consume => rwa [stepConsume_regs]
  | readInt => exact stepReadInt_wf h
  | plain | noEvent => rwa [returnEvent_regs]
  | energyByte r => exact readEnergyByte_wf h r
  | energy bs v en _ _ hm => rw [returnEvent_regs]; exact wf_of_memRead h hm
  | dist _ _ _ _ _ hm | readRetry _ _ _ _ hm | readError _ _ _ _ _ _ hm =>
    have hv := wf_of_memRead h hm
    exact hv
  | append => rwa [stepAppend_regs]
  | observe => rwa [stepObserve_regs]
  | throttle => rwa [stepThrottle_regs]
  | keepalive => rwa [stepKeepalive_regs]
  | between => rwa [stepBetween_regs]

theorem moved_wf {u t : State} {m : Move} (h : u.sensorRegs.wf = true) (hm : Moved u m t) : t.sensorRegs.wf = true := by
  cases hm with
  | main _ he => exact effect_wf (u := u.wake) h he
  | sensor r b => exact wf_write _ r b h
  | cmd _ _ ha | driver _ _ ha => exact accepts_wf h ha
  | _ => exact h

/-! ### The statements -/

/-- Every step keeps the registers in order. -/
theorem step_registersOk {s t : State} (r : RegistersOk s) (hev : EventOk s) (h : step s = .next t) : RegistersOk t := by
  cases step_writes h with
  | nothing k => exact r.of_keeps k
  | edge ha k => exact (r.edge ha.2).of_keeps k
  | main _ hw =>
    have k := keeps_awake s
    refine (r.of_keeps k).of_writes (fun e he => ?_) hw
    obtain ⟨hts, hwf⟩ := hev e (by simpa using he)
    exact ⟨hts.trans k.now, hwf⟩

/-- Settles O45, part by part: the registers by their writers, the rest by the effects of a move. -/
theorem everyStepKeepsTheInvariant : Obligations.EveryStepKeepsTheInvariant := by
  intro s t hinv h
  obtain ⟨hregs, hhand, hmem⟩ := (inv_iff s).mp hinv
  have moved := step_moved s t h
  obtain ⟨hnext, hnextMem⟩ : HandOk s.nextMove.2 ∧ s.nextMove.2.sensorRegs.wf = true := by
    obtain ⟨ms, n, hn⟩ := nextMove_same s
    rw [hn]
    exact ⟨{ hhand with }, hmem⟩
  exact (inv_iff t).mpr
    ⟨step_registersOk hregs hhand.event h, moved_handOk hnext moved, moved_wf hnextMem moved⟩

/-- Settles O46: at reset nothing is stored, in hand or pending, and the sizes are the defaults. -/
theorem resetHasTheInvariant : Obligations.ResetHasTheInvariant := by
  refine (inv_iff State.reset).mpr ⟨?_, ?_, reset_memory_wf⟩
  · exact ⟨by simp [State.sizesOk, State.reset], by simp [State.logOk, State.reset], le_refl 0, le_refl 0, le_refl 0,
      le_refl 0, by simp [State.reset], by simp [State.captureOk, State.reset]⟩
  · exact handOk_of_cleared rfl (Nat.zero_le _) (by simp [State.reset]) (by simp [State.reset]) rfl

end Sys2Proof.Proofs
end

section
/-! PROOF. With nothing pending LAST_EDGE is unobservable (10_state.md R14): every operation but the edge and the consume commutes
with putting another reading into LAST_EDGE, and those two do not look at it while nothing is pending. -/

namespace Sys2Proof.Proofs

open Sys2Proof.Machine Sys2Proof.Laws

/-- The state with another reading in LAST_EDGE. -/
def edgeAt (x : Nat) (s : State) : State := { s with lastEdge := x }

variable (x : Nat)

/-- Two branches that commute, under a condition that LAST_EDGE does not enter. -/
theorem edgeAt_ite (c : Prop) [Decidable c] (s t : State) :
    (if c then edgeAt x s else edgeAt x t) = edgeAt x (if c then s else t) := (apply_ite (edgeAt x) c s t).symm

/-! ### The environment's answers and the bus -/

theorem drawBus_edgeAt (s : State) : (edgeAt x s).drawBus = s.drawBus.map id (edgeAt x) := by
  unfold State.drawBus
  rw [show (edgeAt x s).busIn = s.busIn from rfl]
  cases s.busIn <;> rfl

theorem drawSink_edgeAt (s : State) : (edgeAt x s).drawSink = s.drawSink.map id (edgeAt x) := by
  unfold State.drawSink
  rw [show (edgeAt x s).sinkIn = s.sinkIn from rfl]
  cases s.sinkIn <;> rfl

theorem busReadOnce_edgeAt (s : State) (r : RegAddr) (n : Nat) :
    (edgeAt x s).busReadOnce r n = (s.busReadOnce r n).map id (edgeAt x) := by
  have hd : ((edgeAt x s).emit (.busRead (edgeAt x s).par.bus.addr r n)).drawBus = _ :=
    drawBus_edgeAt x (s.emit (.busRead s.par.bus.addr r n))
  unfold State.busReadOnce
  rw [hd]
  rcases (s.emit (.busRead s.par.bus.addr r n)).drawBus with ⟨_ | ⟨_, _ | _⟩, u⟩ <;> rfl

theorem busWriteOnce_edgeAt (s : State) (r : RegAddr) (bs : List Byte) :
    (edgeAt x s).busWriteOnce r bs = (s.busWriteOnce r bs).map id (edgeAt x) := by
  have hd : ((edgeAt x s).emit (.busWrite (edgeAt x s).par.bus.addr r bs)).drawBus = _ :=
    drawBus_edgeAt x (s.emit (.busWrite s.par.bus.addr r bs))
  unfold State.busWriteOnce
  rw [hd]
  rcases (s.emit (.busWrite s.par.bus.addr r bs)).drawBus with ⟨_ | ⟨_, _ | _⟩, u⟩ <;> rfl

theorem txFail_edgeAt {α : Type} (s : State) (c : Cause) :
    (edgeAt x s).txFail (α := α) c = (s.txFail c).map id (edgeAt x) := by
  unfold State.txFail
  rw [apply_ite (Prod.map id (edgeAt x))]
  rfl

theorem memRead_edgeAt (s : State) (r : RegAddr) (n : Nat) :
    (edgeAt x s).memRead r n = (s.memRead r n).map id (edgeAt x) := by
  unfold State.memRead
  rw [busReadOnce_edgeAt]
  rcases s.busReadOnce r n with ⟨c | _, u⟩
  · exact txFail_edgeAt x u c
  · rfl

theorem memWrite_edgeAt (s : State) (r : RegAddr) (bs : List Byte) :
    (edgeAt x s).memWrite r bs = (s.memWrite r bs).map id (edgeAt x) := by
  unfold State.memWrite
  rw [busWriteOnce_edgeAt]
  rcases s.busWriteOnce r bs with ⟨c | _, u⟩
  · exact txFail_edgeAt x u c
  · rfl

theorem readModifyWrite_edgeAt (s : State) (f : RegField) (v : Byte) :
    (edgeAt x s).readModifyWrite f v = (s.readModifyWrite f v).map id (edgeAt x) := by
  unfold State.readModifyWrite
  rw [busReadOnce_edgeAt]
  rcases s.busReadOnce f.reg 1 with ⟨c | bs, u⟩
  · exact txFail_edgeAt x u c
  · simp only [Prod.map, id]
    rw [busWriteOnce_edgeAt]
    rcases u.busWriteOnce f.reg [f.set (bs.headD 0) v] with ⟨c | _, w⟩
    · exact txFail_edgeAt x w c
    · rfl

theorem emitPublish_edgeAt (s : State) (o : Output) : (edgeAt x s).emitPublish o = edgeAt x (s.emitPublish o) := by
  have hd : ((edgeAt x s).emit o).drawSink = _ := drawSink_edgeAt x (s.emit o)
  unfold State.emitPublish
  rw [hd]
  rcases (s.emit o).drawSink with ⟨_ | _, u⟩ <;> rfl

/-! ### The driver -/

theorem drvAdvance_edgeAt (s : State) (j : DrvJob) (rest : List DrvOp) (got : List Byte) :
    (edgeAt x s).drvAdvance j rest got = edgeAt x (s.drvAdvance j rest got) := by
  cases rest <;> rfl

theorem drvStep_edgeAt (s : State) (j : DrvJob) : (edgeAt x s).drvStep j = edgeAt x (s.drvStep j) := by
  obtain ⟨call, todo, got⟩ := j
  rcases todo with _ | ⟨reg | ⟨reg, bytes⟩ | ⟨f, v⟩ | d, rest⟩ <;> unfold State.drvStep <;> dsimp only
  · rfl
  · rw [memRead_edgeAt]
    rcases s.memRead reg 1 with ⟨_ | _ | _, u⟩
    · exact drvAdvance_edgeAt x u _ _ _
    · rfl
    · rfl
  · rw [memWrite_edgeAt]
    rcases s.memWrite reg bytes with ⟨_ | _ | _, u⟩
    · exact drvAdvance_edgeAt x u _ _ _
    · rfl
    · rfl
  · rw [readModifyWrite_edgeAt]
    rcases s.readModifyWrite f v with ⟨_ | _ | _, u⟩
    · exact drvAdvance_edgeAt x u _ _ _
    · rfl
    · rfl
  · exact drvAdvance_edgeAt x (s.sleep d) _ _ _

theorem drvStart_edgeAt (s : State) (c : DrvCall) : (edgeAt x s).drvStart c = edgeAt x (s.drvStart c) := by
  unfold State.drvStart
  rw [show (edgeAt x s).driver = s.driver from rfl, show (edgeAt x s).par = s.par from rfl]
  split
  · rfl
  · split
    · rfl
    · exact drvStep_edgeAt x s _

theorem drvCall_edgeAt (s : State) (c : DrvCall) : (edgeAt x s).drvCall c = edgeAt x (s.drvCall c) := by
  unfold State.drvCall
  rw [drvStart_edgeAt, ← edgeAt_ite]
  rfl

/-! ### The instructions -/

theorem returnEvent_edgeAt (s : State) (ev : Option Event) :
    (edgeAt x s).returnEvent ev = edgeAt x (s.returnEvent ev) := by
  unfold State.returnEvent
  rw [← edgeAt_ite]
  cases ev <;> rfl

theorem refuseCmd_edgeAt (s : State) (i : Instr) : (edgeAt x s).refuseCmd i = edgeAt x (s.refuseCmd i) := by
  unfold State.refuseCmd
  rw [← edgeAt_ite]
  rfl

/-- Every instruction but the edge. -/
theorem exec_edgeAt {s t : State} (i : Instr) (hi : i ≠ .edge) (h : exec i s = .next t) :
    exec i (edgeAt x s) = .next (edgeAt x t) := by
  cases i with
  | edge => exact absurd rfl hi
  | stop => cases h; rfl
  | start | service | run | setObserver | tail | srcLightning | dist6 =>
    cases h
    rw [← edgeAt_ite]
    rfl
  | reservedOp0 | reservedOp8F | startNonzeroArg | stopNonzeroArg | serviceNonzeroArg | runNonzeroArg =>
    cases h
    exact congrArg _ (refuseCmd_edgeAt x s _)
  | readEvent d =>
    cases h
    rw [← edgeAt_ite, ← edgeAt_ite]
    rfl
  | srcDisturber | srcNoise | srcNone | energy21 =>
    cases h
    rw [← edgeAt_ite, ← returnEvent_edgeAt]
    rfl
  | gainIndoor | gainOutdoor | minStrikes1 | minStrikes5 | minStrikes9 | minStrikes16 | divider16 | divider32
  | divider64 | divider128 => cases h; exact congrArg _ (drvCall_edgeAt x s _)

/-- A command word is no edge. -/
theorem decodeCmd_ne_edge (w : CmdWord) : decodeCmd w ≠ .edge := by
  unfold decodeCmd
  dsimp only
  repeat' split
  all_goals exact Instr.noConfusion

/-- A source code is no edge. -/
theorem decodeSrc_ne_edge (c : Code4) : decodeSrc c ≠ .edge := by
  unfold decodeSrc
  repeat' split
  all_goals exact Instr.noConfusion

/-- A register byte of the driver is no edge. -/
theorem driverWord_ne_edge (f : Format) (b : Byte) : driverWord f b ≠ some .edge := by
  cases f with
  | gainReg =>
    unfold driverWord decodeGain
    dsimp only
    split
    · simp [Except.toOption]
    · split <;> simp [Except.toOption]
  | statusReg =>
    unfold driverWord decodeStrikes
    dsimp only
    split <;> simp
  | srcMaskReg =>
    unfold driverWord decodeDivider
    dsimp only
    split <;> simp
  | edge1 | cmd16 | src4 | regByte | regByte3 => simp [driverWord]

/-- A distance byte or three energy bytes are run, and are no edge. -/
theorem runWord_edgeAt {s t : State} {f : Format} {w : Nat} {i : Instr} (hd : decode f w = .ok i) (hi : i ≠ .edge)
    (h : runWord f w s = .next t) : runWord f w (edgeAt x s) = .next (edgeAt x t) := by
  rw [runWord, hd] at h ⊢
  exact exec_edgeAt x i hi h

theorem startCall_edgeAt {s t : State} (c : DrvCall) (h : s.startCall c = .next t) :
    (edgeAt x s).startCall c = .next (edgeAt x t) := by
  cases c with
  | field f b =>
    unfold State.startCall at h ⊢
    dsimp only at h ⊢
    cases hw : driverWord f b with
    | some i =>
      rw [hw] at h
      exact exec_edgeAt x i (fun e => driverWord_ne_edge f b (e ▸ hw)) h
    | none =>
      rw [hw] at h
      cases h
      exact congrArg _ (drvCall_edgeAt x s _)
  | _ => cases h; exact congrArg _ (drvCall_edgeAt x s _)

/-! ### The micro-steps of the main context -/

theorem stepEntry_edgeAt (s : State) : (edgeAt x s).stepEntry = edgeAt x s.stepEntry := by
  unfold State.stepEntry
  rw [← edgeAt_ite]
  rfl

/-- The consume looks at PENDING first, and goes no further. -/
theorem stepConsume_of_not_pending {s : State} (hp : s.pending = false) (hs : s.par.consumeSplit = false) :
    s.stepConsume = s.exitDrain := by
  have hc : s.consume = (false, s) := by simp [State.consume, hp]
  simp [State.stepConsume, hs, State.stepConsumeWhole, hc]

theorem stepConsume_edgeAt (s : State) (hp : s.pending = false) (hs : s.par.consumeSplit = false) :
    (edgeAt x s).stepConsume = edgeAt x s.stepConsume := by
  rw [stepConsume_of_not_pending hp hs, stepConsume_of_not_pending (s := edgeAt x s) hp hs]
  rfl

theorem stepReadInt_edgeAt (s : State) : (edgeAt x s).stepReadInt = edgeAt x s.stepReadInt := by
  unfold State.stepReadInt
  rw [show (edgeAt x s).par = s.par from rfl, memRead_edgeAt]
  rcases s.memRead s.par.sensor.regInt 1 with ⟨_ | _ | _, u⟩ <;> rfl

theorem readEnergyByte_edgeAt (s : State) (r : RegAddr) : (edgeAt x s).readEnergyByte r = edgeAt x (s.readEnergyByte r) := by
  unfold State.readEnergyByte
  rw [memRead_edgeAt]
  rcases s.memRead r 1 with ⟨_ | _ | _, u⟩ <;> rfl

theorem stepReadDist_edgeAt {s t : State} (h : s.stepReadDist = .next t) :
    (edgeAt x s).stepReadDist = .next (edgeAt x t) := by
  unfold State.stepReadDist at h ⊢
  rw [show (edgeAt x s).par = s.par from rfl, memRead_edgeAt]
  rcases hm : s.memRead s.par.sensor.regDist 1 with ⟨_ | _ | _, u⟩ <;> rw [hm] at h
  · exact runWord_edgeAt x (decode_dist _) Instr.noConfusion h
  · cases h; rfl
  · cases h; rfl

theorem stepReadEnergy_edgeAt {s t : State} (h : s.stepReadEnergy = .next t) :
    (edgeAt x s).stepReadEnergy = .next (edgeAt x t) := by
  unfold State.stepReadEnergy at h ⊢
  rw [show (edgeAt x s).par = s.par from rfl, show (edgeAt x s).work = s.work from rfl]
  rcases hb : s.work.energyBytes with _ | ⟨l, _ | ⟨m, _⟩⟩ <;> rw [hb] at h
  · cases h; exact congrArg _ (readEnergyByte_edgeAt x s _)
  · cases h; exact congrArg _ (readEnergyByte_edgeAt x s _)
  · dsimp only at h ⊢
    rw [memRead_edgeAt]
    rcases hm : s.memRead s.par.sensor.regMsb 1 with ⟨_ | _ | _, u⟩ <;> rw [hm] at h
    · exact runWord_edgeAt x (decode_energy _ _ _) Instr.noConfusion h
    · cases h; rfl
    · cases h; rfl

theorem stepAppend_edgeAt (s : State) : (edgeAt x s).stepAppend = edgeAt x s.stepAppend := by
  unfold State.stepAppend
  rw [show (edgeAt x s).work = s.work from rfl]
  cases s.work.ev <;> rfl

theorem observe_edgeAt (s : State) (e : Event) : (edgeAt x s).observe e = edgeAt x (s.observe e) := by
  unfold State.observe
  rw [show (edgeAt x s).observer = s.observer from rfl]
  cases s.observer with
  | none => rfl
  | some id => exact congrArg Prod.snd (drawSink_edgeAt x (s.emit (.observer id e)))

theorem stepObserve_edgeAt (s : State) : (edgeAt x s).stepObserve = edgeAt x s.stepObserve := by
  unfold State.stepObserve
  rw [show (edgeAt x s).work = s.work from rfl]
  cases s.work.ev with
  | none => rfl
  | some e => dsimp only; rw [observe_edgeAt]; rfl

theorem forward_edgeAt (s : State) (e : Event) : (edgeAt x s).forward e = edgeAt x (s.forward e) := by
  unfold State.forward
  dsimp only
  rw [emitPublish_edgeAt, emitPublish_edgeAt]
  rfl

theorem throttle_edgeAt (s : State) (e : Event) : (edgeAt x s).throttle e = edgeAt x (s.throttle e) := by
  unfold State.throttle
  rw [← edgeAt_ite, ← forward_edgeAt]
  rfl

theorem stepThrottle_edgeAt (s : State) : (edgeAt x s).stepThrottle = edgeAt x s.stepThrottle := by
  unfold State.stepThrottle
  rw [show (edgeAt x s).work = s.work from rfl]
  cases s.work.ev with
  | none => rfl
  | some e => dsimp only; rw [throttle_edgeAt]; rfl

theorem keepalive_edgeAt (s : State) : (edgeAt x s).keepalive = edgeAt x s.keepalive := by
  unfold State.keepalive
  rw [← edgeAt_ite, emitPublish_edgeAt]
  rfl

theorem stepKeepalive_edgeAt (s : State) : (edgeAt x s).stepKeepalive = edgeAt x s.stepKeepalive := by
  rw [stepKeepalive_eq, stepKeepalive_eq, keepalive_edgeAt]
  unfold endService
  rw [← edgeAt_ite]
  rfl

theorem stepBetween_edgeAt (s : State) : (edgeAt x s).stepBetween = edgeAt x s.stepBetween := by
  unfold State.stepBetween
  rw [← edgeAt_ite]
  rfl

theorem stepIdle_edgeAt {s t : State} (h : s.stepIdle = .next t) : (edgeAt x s).stepIdle = .next (edgeAt x t) := by
  unfold State.stepIdle at h ⊢
  rw [show (edgeAt x s).waiting = s.waiting from rfl]
  rcases hw : s.waiting with _ | ⟨w | c, rest⟩ <;> rw [hw] at h
  · cases h; rfl
  · exact exec_edgeAt x (s := { s with waiting := rest }) _ (decodeCmd_ne_edge w) h
  · exact startCall_edgeAt x (s := { s with waiting := rest }) c h

theorem microStep_edgeAt {s t : State} (hp : s.pending = false) (hs : s.par.consumeSplit = false)
    (h : s.microStep = .next t) : (edgeAt x s).microStep = .next (edgeAt x t) := by
  unfold State.microStep at h ⊢
  rw [show (edgeAt x s).drvJob = s.drvJob from rfl, show (edgeAt x s).phase = s.phase from rfl]
  cases hj : s.drvJob with
  | some j => rw [hj] at h; cases h; exact congrArg _ (drvStep_edgeAt x s j)
  | none =>
    cases hph : s.phase <;> simp only [hj, hph] at h ⊢
    case idle => exact stepIdle_edgeAt x h
    case sClassify => exact exec_edgeAt x _ (decodeSrc_ne_edge _) h
    case sReadDist => exact stepReadDist_edgeAt x h
    case sReadEnergy => exact stepReadEnergy_edgeAt x h
    case sEntry => cases h; exact congrArg _ (stepEntry_edgeAt x s)
    case sConsume => cases h; exact congrArg _ (stepConsume_edgeAt x s hp hs)
    case pSleep => cases h; rfl
    case sReadInt => cases h; exact congrArg _ (stepReadInt_edgeAt x s)
    case sAppend => cases h; exact congrArg _ (stepAppend_edgeAt x s)
    case sObserve => cases h; exact congrArg _ (stepObserve_edgeAt x s)
    case sThrottle => cases h; exact congrArg _ (stepThrottle_edgeAt x s)
    case sKeepalive => cases h; exact congrArg _ (stepKeepalive_edgeAt x s)
    case rBetween => cases h; exact congrArg _ (stepBetween_edgeAt x s)

/-! ### The moves -/

/-- While nothing pends, an edge is accepted whenever the callback is registered. -/
theorem edgeAccepted_of_not_pending {s : State} (hp : s.pending = false) : s.edgeAccepted = s.irqEn := by
  simp [State.edgeAccepted, hp]

theorem nextMove_edgeAt (s : State) : (edgeAt x s).nextMove = s.nextMove.map id (edgeAt x) := by
  unfold State.nextMove
  rw [show (edgeAt x s).sched = s.sched from rfl]
  cases s.sched <;> rfl

/-- A strobe that is no accepted edge changes nothing. -/
theorem irq_not_accepted {s : State} {b : BitVec 1} (h : ¬(b = 1 ∧ s.edgeAccepted = true)) :
    s.move (.irq b) = .next s := by
  have hb : ∀ b : BitVec 1, b = 0 ∨ b = 1 := by decide
  rcases hb b with rfl | rfl
  · rfl
  · exact congrArg _ (if_neg fun ha => h ⟨rfl, ha⟩)

/-- Every move but an accepted edge. -/
theorem move_edgeAt {s t : State} {m : Move} (hp : s.pending = false) (hs : s.par.consumeSplit = false)
    (hne : ¬(m = .irq 1 ∧ s.edgeAccepted = true)) (h : s.move m = .next t) :
    (edgeAt x s).move m = .next (edgeAt x t) := by
  cases m with
  | main => exact microStep_edgeAt x (s := s.wake) hp hs h
  | irq b =>
    have hb : ¬(b = 1 ∧ s.edgeAccepted = true) := fun ⟨h1, ha⟩ => hne ⟨by rw [h1], ha⟩
    have hbx : ¬(b = 1 ∧ (edgeAt x s).edgeAccepted = true) := by
      rwa [edgeAccepted_of_not_pending (s := edgeAt x s) hp, show (edgeAt x s).irqEn = s.irqEn from rfl,
        ← edgeAccepted_of_not_pending hp]
    rw [irq_not_accepted hb] at h
    cases h
    exact irq_not_accepted hbx
  | cmd w =>
    simp only [State.move, State.cmdArrives] at h ⊢
    rw [show (edgeAt x s).waiting = s.waiting from rfl]
    split at h
    · next hc => rw [if_pos hc]; exact exec_edgeAt x _ (decodeCmd_ne_edge w) h
    · next hc => rw [if_neg hc]; cases h; rfl
  | driver c =>
    simp only [State.move, State.callArrives] at h ⊢
    rw [show (edgeAt x s).waiting = s.waiting from rfl]
    split at h
    · next hc => rw [if_pos hc]; exact startCall_edgeAt x c h
    · next hc => rw [if_neg hc]; cases h; rfl
  | stopPort | advance | driverState | sensor => cases h; rfl

/-- An accepted edge overwrites LAST_EDGE, whatever it held. -/
theorem step_accepted_edge {s : State} (ha : s.aboutToAcceptEdge) :
    step s = .next { s.nextMove.2 with pending := true, lastEdge := s.nextMove.2.now } := by
  obtain ⟨hm, hacc⟩ := ha
  have hacc' : s.nextMove.2.edgeAccepted = true := (nextMove_edgeAccepted s).trans hacc
  unfold step State.stepMove
  rw [hm]
  exact congrArg _ (if_pos hacc')

/-- Settles O51: an accepted edge forgets what LAST_EDGE held; every other step commutes with putting another reading into it,
and leaves nothing pending. -/
theorem lastEdgeIsUnobservableWhileNothingPends : Obligations.LastEdgeIsUnobservableWhileNothingPends := by
  intro s t x hp hs h
  have hnext := nextMove_edgeAt x s
  by_cases ha : s.aboutToAcceptEdge
  · have hax : (edgeAt x s).aboutToAcceptEdge := by
      obtain ⟨hm, hacc⟩ := ha
      refine ⟨by rw [hnext]; exact hm, ?_⟩
      rw [edgeAccepted_of_not_pending (s := edgeAt x s) hp]
      exact (edgeAccepted_of_not_pending hp).symm.trans hacc
    rw [step_accepted_edge ha] at h
    cases h
    refine ⟨s.nextMove.2.now, (step_accepted_edge hax).trans ?_, fun _ => rfl⟩
    rw [hnext]
    rfl
  · have hnot : ¬t.pending = true := by
      rcases step_debounce h with ⟨ha', _⟩ | ⟨_, ht | ⟨ht, _⟩⟩
      · exact absurd ha' ha
      · rw [ht, hp]; exact Bool.false_ne_true
      · rw [ht]; exact Bool.false_ne_true
    refine ⟨x, ?_, fun ht => absurd ht hnot⟩
    have hmove : ¬(s.nextMove.1 = .irq 1 ∧ s.nextMove.2.edgeAccepted = true) := by
      rwa [nextMove_edgeAccepted]
    obtain ⟨hparNext, hpendNext⟩ : s.nextMove.2.par = s.par ∧ s.nextMove.2.pending = s.pending :=
      ⟨(keeps_nextMove s).par, (keeps_nextMove s).pending⟩
    have hstep := move_edgeAt x (hpendNext.trans hp) (hparNext ▸ hs) hmove h
    change (edgeAt x s).nextMove.2.move (edgeAt x s).nextMove.1 = _
    rw [hnext]
    exact hstep

end Sys2Proof.Proofs
end

section
/-! PROOF. How a read of the sensor is retried (20_memory.md R42, R46): every read phase is one attempt of `MemRead` and
what becomes of its byte, so one account of the failed attempts serves the five reads. -/

namespace Sys2Proof.Proofs

open Sys2Proof.Machine Sys2Proof.Laws

/-! ### The bytes read, in arithmetic (30_encoding.md R80, 42_sensor_accessors.md R122) -/

theorem sourceCode_eq (shift : Nat) (b : Byte) : sourceCode shift b = BitVec.ofNat 4 (b.toNat / 2 ^ shift) := by
  apply BitVec.eq_of_toNat_eq
  simp [sourceCode, Nat.shiftRight_eq_div_pow]

theorem maskDistance_eq (shift : Nat) (b : Byte) : maskDistance shift b = BitVec.ofNat 6 (b.toNat / 2 ^ shift) := by
  apply BitVec.eq_of_toNat_eq
  simp [maskDistance, Nat.shiftRight_eq_div_pow]

/-- The three energy bytes lie side by side, so joining them is adding them. -/
theorem assembleEnergy_eq (l m h : Byte) :
    assembleEnergy l m h = BitVec.ofNat 21 (h.toNat % 32 * 65536 + m.toNat * 256 + l.toNat) := by
  have hl := l.isLt
  have hm := m.isLt
  have hh : h.toNat &&& 31 = h.toNat % 32 := Nat.and_two_pow_sub_one_eq_mod h.toNat 5
  have top := Nat.shiftLeft_add_eq_or_of_lt (i := 16) (b := m.toNat * 256 + l.toNat) (by omega) (h.toNat % 32)
  have low := Nat.shiftLeft_add_eq_or_of_lt (i := 8) (b := l.toNat) hl m.toNat
  simp only [Nat.shiftLeft_eq, Nat.reducePow] at low top
  have mod : ∀ {n : Nat}, n < 2097152 → n % 2097152 = n := fun h => Nat.mod_eq_of_lt h
  apply BitVec.eq_of_toNat_eq
  simp only [assembleEnergy, BitVec.toNat_or, BitVec.toNat_shiftLeft, BitVec.toNat_setWidth, BitVec.toNat_and,
    BitVec.toNat_ofNat, Nat.reduceMod, Nat.reducePow, hh, Nat.shiftLeft_eq]
  rw [mod (n := h.toNat % 32) (by omega), mod (n := h.toNat % 32 * 65536) (by omega), mod (n := m.toNat) (by omega),
    mod (n := m.toNat * 256) (by omega), mod (n := l.toNat) (by omega), Nat.or_assoc, ← low, ← top, mod (by omega)]
  exact (Nat.add_assoc _ _ _).symm

/-! ### One attempt of the phase's read -/

theorem returnEvent_toHost {s : State} (ev : Option Event) (h : s.work.byHost = true) :
    s.returnEvent ev = s.endOp.respond .ok (.event ev) := if_pos h

theorem returnEvent_toDrain {s : State} (e : Event) (h : ¬s.work.byHost = true) :
    s.returnEvent (some e) = { s with phase := .sAppend, work := { ev := some e } } := if_neg h

/-- What becomes of the byte that the phase's read obtains (43_event_capture.md R143): the source code, the distance, an
energy byte that is kept, or the Lightning Event. -/
def takeByte (s : State) (b : Byte) : State :=
  match s.phase, s.work.energyBytes with
  | .sReadInt, _ =>
    { s with phase := .sClassify, work := { s.work with code := sourceCode s.par.sensor.intShift b } }
  | .sReadDist, _ =>
    { s with phase := .sReadEnergy,
             work := { s.work with dist := maskDistance s.par.sensor.distShift b, energyBytes := [] } }
  | .sReadEnergy, l :: m :: _ => s.returnEvent (some (s.lightningEvent (assembleEnergy l m b)))
  | _, kept => { s with work := { s.work with energyBytes := kept ++ [b] } }

theorem takeByte_int {s : State} (b : Byte) (hp : s.phase = .sReadInt) :
    takeByte s b =
      { s with phase := .sClassify, work := { s.work with code := sourceCode s.par.sensor.intShift b } } := by
  simp [takeByte, hp]

theorem takeByte_dist {s : State} (b : Byte) (hp : s.phase = .sReadDist) :
    takeByte s b =
      { s with phase := .sReadEnergy,
               work := { s.work with dist := maskDistance s.par.sensor.distShift b, energyBytes := [] } } := by
  simp [takeByte, hp]

theorem takeByte_energyKept {s : State} (b : Byte) (hp : s.phase = .sReadEnergy) (hl : s.work.energyBytes.length < 2) :
    takeByte s b = { s with work := { s.work with energyBytes := s.work.energyBytes ++ [b] } } := by
  match he : s.work.energyBytes with
  | [] | [_] => simp [takeByte, hp, he]
  | _ :: _ :: _ => simp [he] at hl

theorem takeByte_energyLast {s : State} (b l m : Byte) (tl : List Byte) (hp : s.phase = .sReadEnergy)
    (he : s.work.energyBytes = l :: m :: tl) :
    takeByte s b = s.returnEvent (some (s.lightningEvent (assembleEnergy l m b))) := by
  simp [takeByte, hp, he]

/-- A byte that is taken changes the phase and the local values, and may answer the host; nothing else. -/
theorem takeByte_frame (s : State) (b : Byte) :
    ∃ p w o, takeByte s b = { s with phase := p, work := w, out := s.out ++ o } ∧
      ∀ a r bs, Output.busWrite a r bs ∉ o := by
  have silent : ∀ p w, ({ s with phase := p, work := w } : State) =
      { s with phase := p, work := w, out := s.out ++ [] } := fun p w => by rw [List.append_nil]
  unfold takeByte
  split
  · exact ⟨_, _, [], silent _ _, by simp⟩
  · exact ⟨_, _, [], silent _ _, by simp⟩
  · next l m _ _ _ =>
    rcases returnEvent_cases s (some (s.lightningEvent (assembleEnergy l m b))) with
      ⟨_, h⟩ | ⟨_, e, _, h⟩ | ⟨_, h, _⟩
    · exact ⟨_, _, [.rsp .ok (.event _)], h, by simp⟩
    · exact ⟨_, _, [], h.trans (silent _ _), by simp⟩
    · cases h
  · exact ⟨_, _, [], silent s.phase _, by simp⟩

/-- How a read phase goes on after an attempt: with the byte, with the next attempt after BACKOFF, or with the BusError.
-/
def afterAttempt : Tx (List Byte) × State → State
  | (.done bs, v) => takeByte v (bs.headD 0)
  | (.retry, v) => v
  | (.error n c, v) => v.raise .busError (.busFailure n c)

/-- The five read phases are one attempt of `MemRead` at the phase's register. -/
theorem microStep_read {s : State} {reg : RegAddr} (hj : s.drvJob = none) (hr : s.readRegister = some reg) :
    s.microStep = .next (afterAttempt (s.memRead reg 1)) := by
  have hs := memRead_same s reg 1
  generalize hm : s.memRead reg 1 = result at hs
  obtain ⟨tx, v⟩ := result
  have hv : v.phase = s.phase := hs.phase
  have hw : v.work = s.work := hs.work
  have hpar : v.par = s.par := hs.par
  unfold State.readRegister at hr
  unfold State.microStep
  rw [hj]
  dsimp only
  split at hr
  · next hp =>
    cases hr
    cases tx <;> simp [hp, State.stepReadInt, hm, afterAttempt, takeByte, hv, hpar]
  · next hp =>
    cases hr
    cases tx <;> simp [hp, State.stepReadDist, hm, afterAttempt, takeByte, hv, runWord, decode_dist, exec, execDist6]
  · next hp he =>
    cases hr
    cases tx <;> simp [hp, he, State.stepReadEnergy, State.readEnergyByte, hm, afterAttempt, takeByte, hv, hw]
  · next hp he =>
    cases hr
    cases tx <;> simp [hp, he, State.stepReadEnergy, State.readEnergyByte, hm, afterAttempt, takeByte, hv, hw]
  · next hp he =>
    cases hr
    cases tx <;>
      simp [hp, he, State.stepReadEnergy, hm, afterAttempt, takeByte, hv, hw, runWord, decode_energy, exec, execEnergy21]
  · cases hr

/-! ### Failed attempts -/

/-- `t` is `s` after `k` failed attempts that put `traffic` out, each with its BACKOFF: only the transaction's own
fields, the time and the sensor's registers differ. With the sleep that is under way counted in, the time is `k`
BACKOFFs later. -/
structure Retried (s t : State) (k : Nat) (ms : List Move) (rest : List BusAnswer) (traffic : List Output) : Prop where
  same : t = { s with sched := ms, busIn := rest, out := s.out ++ traffic, busTry := s.busTry + k,
                      now := t.now, wakeAt := t.wakeAt, sensorRegs := t.sensorRegs }
  clock : max t.now t.wakeAt = max s.now s.wakeAt + k * s.par.bus.backoff

theorem Retried.refl (s : State) : Retried s s 0 s.sched s.busIn [] where
  same := by simp
  clock := by simp

section
variable {s t : State} {k : Nat} {ms : List Move} {rest : List BusAnswer} {traffic : List Output}
  (h : Retried s t k ms rest traffic)
include h

theorem Retried.par : t.par = s.par := by rw [h.same]
theorem Retried.sched : t.sched = ms := by rw [h.same]
theorem Retried.busIn : t.busIn = rest := by rw [h.same]
theorem Retried.busTry : t.busTry = s.busTry + k := by rw [h.same]
theorem Retried.drvJob : t.drvJob = s.drvJob := by rw [h.same]
theorem Retried.readRegister : t.readRegister = s.readRegister := by rw [h.same]; rfl

end

theorem Retried.trans {s t u : State} {j k : Nat} {ms ms' : List Move} {rest rest' : List BusAnswer}
    {out out' : List Output} (h : Retried s t j ms rest out) (h' : Retried t u k ms' rest' out') :
    Retried s u (j + k) ms' rest' (out ++ out') where
  same := by
    refine h'.same.trans ?_
    rw [h.same]
    simp [Nat.add_assoc]
  clock := by
    rw [h'.clock, h.clock, h.par, Nat.add_assoc, ← Nat.add_mul]

/-- A read attempt that fails puts the read out, and clears at most the source code, where it reached the sensor. -/
theorem memRead_failed (s : State) (reg : RegAddr) (c : Cause) (reached : Bool) (rest : List BusAnswer)
    (h : s.busIn = .fail c reached :: rest) :
    ∃ m : Memory,
      s.memRead reg 1 = ({ s with busIn := rest, sensorRegs := m,
                                  out := s.out ++ [.busRead s.par.bus.addr reg 1] } : State).txFail c ∧
      ({ s with sensorRegs := m } : State).registersAfterReads s (decide (reg = s.par.sensor.regInt) && reached) := by
  rw [memRead_fail s reg 1 c reached rest h]
  cases reached with
  | false => exact ⟨s.sensorRegs, rfl, by rw [Bool.and_false]; exact registersAfterReads_of_eq rfl⟩
  | true => exact ⟨(s.clearCause reg 1).sensorRegs, rfl, by rw [Bool.and_true]; exact clearCause_registers s reg⟩

/-- The micro-step of a read phase whose attempt fails with attempts left: it sleeps BACKOFF. -/
theorem microStep_readFails {u : State} {reg : RegAddr} {c : Cause} {reached : Bool} {rest : List BusAnswer}
    (hj : u.drvJob = none) (hr : u.readRegister = some reg) (hb : u.busIn = .fail c reached :: rest)
    (hleft : u.busTry < u.par.bus.retries) :
    ∃ m : Memory,
      u.microStep = .next { u with busIn := rest, out := u.out ++ [.busRead u.par.bus.addr reg 1], sensorRegs := m,
                                   wakeAt := u.now + u.par.bus.backoff, busTry := u.busTry + 1 } ∧
      ({ u with sensorRegs := m } : State).registersAfterReads u (decide (reg = u.par.sensor.regInt) && reached) := by
  obtain ⟨m, hm, hregs⟩ := memRead_failed u reg c reached rest hb
  refine ⟨m, ?_, hregs⟩
  rw [microStep_read hj hr, hm, State.txFail, if_pos hleft]
  rfl

/-- One step of a read phase whose attempt fails with attempts left. -/
theorem step_readFails {s : State} {reg : RegAddr} {c : Cause} {reached : Bool} {ms : List Move} {rest : List BusAnswer}
    (hj : s.drvJob = none) (hr : s.readRegister = some reg) (hs : s.sched = .main :: ms)
    (hb : s.busIn = .fail c reached :: rest) (hleft : s.busTry < s.par.bus.retries) :
    ∃ t, step s = .next t ∧ Retried s t 1 ms rest [.busRead s.par.bus.addr reg 1] ∧
      t.registersAfterReads s (decide (reg = s.par.sensor.regInt) && reached) := by
  obtain ⟨m, hm, hregs⟩ := microStep_readFails (u := ({ s with sched := ms } : State).wake) hj hr hb hleft
  exact ⟨_, (step_main s ms hs).trans hm, ⟨rfl, by simp⟩, hregs⟩

/-- Failed attempts of a read, with attempts left after them. -/
theorem steps_readFails {reg : RegAddr} {ms : List Move} {rest : List BusAnswer} (fails : List (Cause × Bool)) (s : State)
    (hj : s.drvJob = none) (hr : s.readRegister = some reg) (hs : s.sched = List.replicate fails.length .main ++ ms)
    (hb : s.busIn = fails.map (fun f => .fail f.1 f.2) ++ rest) (hleft : s.busTry + fails.length ≤ s.par.bus.retries) :
    ∃ t, s.steps fails.length = .next t ∧
      Retried s t fails.length ms rest (List.replicate fails.length (.busRead s.par.bus.addr reg 1)) ∧
      t.registersAfterReads s (decide (reg = s.par.sensor.regInt) && fails.any (fun f => f.2)) := by
  induction fails generalizing s with
  | nil =>
    cases hs
    cases hb
    exact ⟨s, steps_zero s, Retried.refl s, by rw [List.any_nil, Bool.and_false]; exact registersAfterReads_of_eq rfl⟩
  | cons f fails ih =>
    rw [List.length_cons] at hleft
    obtain ⟨u, hstep, hu, hclear⟩ := step_readFails hj hr hs hb (by omega)
    obtain ⟨t, hsteps, ht, hclear'⟩ := ih u (hu.drvJob.trans hj) (hu.readRegister.trans hr) hu.sched hu.busIn
      (by rw [hu.par, hu.busTry]; omega)
    rw [hu.par] at ht hclear'
    refine ⟨t, (steps_succ s u _ hstep).trans hsteps, ?_, ?_⟩
    · simpa [List.replicate_succ, Nat.add_comm] using hu.trans ht
    · simpa [Bool.and_or_distrib_left] using registersAfterReads_trans hu.par hclear hclear'

/-- The state in which the attempt after `k` failed ones is made: they took `k` BACKOFFs and put `traffic` out, and
nothing of the block differs. -/
def attemptsMade (s : State) (k : Nat) (rest : List BusAnswer) (traffic : List Output) (wakeAt : Nat) (m : Memory) : State :=
  { s with now := s.now + k * s.par.bus.backoff, busTry := k, busIn := rest, out := s.out ++ traffic,
           wakeAt := wakeAt, sensorRegs := m }

/-- When the sleep after the last of them is over, the next attempt is made. -/
theorem Retried.awake {s t : State} {k : Nat} {ms : List Move} {rest : List BusAnswer} {traffic : List Output}
    (h : Retried s t k (.main :: ms) rest traffic) (ht : s.busTry = 0) (hw : s.wakeAt ≤ s.now) :
    ({ t with sched := ms } : State).wake =
      { attemptsMade s k rest traffic t.wakeAt t.sensorRegs with sched := ms } := by
  have hclock : max t.now t.wakeAt = s.now + k * s.par.bus.backoff := by rw [h.clock, Nat.max_eq_left hw]
  rw [State.wake, hclock, h.same]
  simp [attemptsMade, ht]

/-- After its failed attempts, at most RETRIES, a read makes one more. -/
theorem steps_lastAttempt {s : State} {reg : RegAddr} {fails : List (Cause × Bool)} {rest : List BusAnswer}
    (hr : s.readRegister = some reg) (hj : s.drvJob = none) (ht : s.busTry = 0) (hw : s.wakeAt ≤ s.now)
    (hleft : fails.length ≤ s.par.bus.retries) (hb : s.busIn = fails.map (fun f => .fail f.1 f.2) ++ rest) :
    ∃ w m, let v := attemptsMade s fails.length rest
            (List.replicate fails.length (.busRead s.par.bus.addr reg 1)) w m
      (s.undisturbed (fails.length + 1)).steps (fails.length + 1) = .next (afterAttempt (v.memRead reg 1)) ∧
      v.registersAfterReads s (decide (reg = s.par.sensor.regInt) && fails.any (fun f => f.2)) := by
  obtain ⟨t, hsteps, hfails, hclear⟩ := steps_readFails (ms := .main :: s.sched) fails (s.undisturbed (fails.length + 1))
    hj hr (by simp [State.undisturbed, List.replicate_succ']) hb (by rw [show (s.undisturbed _).busTry = 0 from ht]; simpa)
  refine ⟨t.wakeAt, t.sensorRegs, ?_, hclear⟩
  rw [steps_add _ t _ 1 hsteps]
  refine steps_succ t _ 0 ((step_main t s.sched hfails.sched).trans ?_)
  rw [hfails.awake ht hw]
  exact microStep_read hj hr

/-- The attempt after the failed ones succeeds, and its byte is taken. -/
theorem steps_readSucceeds {s : State} {reg : RegAddr} {fails : List (Cause × Bool)} {b : Byte} {rest : List BusAnswer}
    (hr : s.readRegister = some reg) (hj : s.drvJob = none) (ht : s.busTry = 0) (hw : s.wakeAt ≤ s.now)
    (hleft : fails.length ≤ s.par.bus.retries) (hb : s.busIn = fails.map (fun f => .fail f.1 f.2) ++ .ok [b] :: rest) :
    ∃ w m, let v := (attemptsMade s fails.length rest
            (List.replicate (fails.length + 1) (.busRead s.par.bus.addr reg 1)) w m).txDone
      (s.undisturbed (fails.length + 1)).steps (fails.length + 1) = .next (takeByte v b) ∧
      v.registersAfterReads s (decide (reg = s.par.sensor.regInt)) := by
  obtain ⟨w, m, hsteps, hfails⟩ := steps_lastAttempt hr hj ht hw hleft hb
  have hclear := registersAfterReads_trans (by rfl) hfails (clearCause_registers _ reg)
  have absorb : ∀ c d : Bool, (c && d || c) = c := by decide
  rw [show (attemptsMade s _ _ _ w m).par = s.par from rfl, absorb] at hclear
  rw [memRead_ok _ reg 1 [b] rest rfl, answerBytes_one] at hsteps
  refine ⟨w, State.sensorRegs (State.clearCause (attemptsMade s fails.length (.ok [b] :: rest) _ w m) reg 1),
    hsteps.trans ?_, hclear⟩
  simp [afterAttempt, attemptsMade, State.clearCause, State.txDone, List.replicate_succ']

/-! ### The statements -/

/-- Settles O30: the failed attempts leave the block as it was, and the byte of the last attempt is taken by its phase. -/
theorem retriedReadSucceedsAfterBackoffs : Obligations.RetriedReadSucceedsAfterBackoffs := by
  intro s reg fails b rest hr hj ht hw hleft hb
  obtain ⟨w, regs, hsteps, hclear⟩ := steps_readSucceeds hr hj ht hw hleft hb
  obtain ⟨_, _, _, hframe, _⟩ := takeByte_frame (State.txDone (attemptsMade s fails.length rest _ w regs)) b
  refine ⟨_, hsteps, (congrArg State.now hframe :), (congrArg State.busTry hframe :), (congrArg State.busIn hframe :),
    (congrArg State.sched hframe :), (congrArg State.drvJob hframe :).trans hj, (congrArg State.driver hframe :),
    (congrArg State.running hframe :), ?_, ?_, fun hp => ?_, fun hp => ?_, fun hp hl => ?_, fun l m tl hp he => ?_⟩
  · rw [hframe]
    simp [State.recordsAs, attemptsMade]
  · rw [hframe]
    exact hclear
  · rw [takeByte_int (s := State.txDone (attemptsMade s _ _ _ w regs)) b hp, sourceCode_eq]
    exact ⟨rfl, rfl, rfl⟩
  · rw [takeByte_dist (s := State.txDone (attemptsMade s _ _ _ w regs)) b hp, maskDistance_eq]
    exact ⟨rfl, rfl, rfl⟩
  · rw [takeByte_energyKept (s := State.txDone (attemptsMade s _ _ _ w regs)) b hp hl]
    exact ⟨hp, rfl, rfl⟩
  · rw [takeByte_energyLast (s := State.txDone (attemptsMade s _ _ _ w regs)) b l m tl hp he, assembleEnergy_eq]
    dsimp only
    split
    · next host =>
      rw [returnEvent_toHost (s := State.txDone (attemptsMade s _ _ _ w regs)) _ host]
      exact ⟨rfl, rfl, rfl⟩
    · next drain =>
      rw [returnEvent_toDrain (s := State.txDone (attemptsMade s _ _ _ w regs)) _ drain]
      exact ⟨rfl, rfl, rfl⟩

/-- Settles O31: the last of the RETRIES + 1 failed attempts raises the error. -/
theorem exhaustedReadRaisesOneBusError : Obligations.ExhaustedReadRaisesOneBusError := by
  intro s reg fails last reached rest hr hj ht hw hlen hb
  obtain ⟨w, m, hsteps, hfails⟩ := steps_lastAttempt hr hj ht hw hlen.le hb
  rw [hlen] at hsteps hfails ⊢
  obtain ⟨m', hm, hlast⟩ := memRead_failed (attemptsMade s s.par.bus.retries _ _ w m) reg last reached rest rfl
  rw [hm, State.txFail, if_neg (by simp [attemptsMade])] at hsteps
  have hclear := registersAfterReads_trans (by rfl) hfails hlast
  refine ⟨_, hsteps, rfl, rfl, rfl, rfl, rfl, ?_, rfl, rfl, hj, rfl, ?_, ?_⟩
  · simp [afterAttempt, attemptsMade, List.replicate_succ']
  · simp [State.recordsAs, afterAttempt, attemptsMade]
  · rw [Bool.and_or_distrib_left, Bool.or_comm]
    exact hclear

end Sys2Proof.Proofs
end

section
/-! PROOF. How a register setting is retried (20_memory.md R42, R44, R46): a readModifyWrite is one attempt, whether its
read or its write fails, so one account of the attempts serves the ten settings. -/

namespace Sys2Proof.Proofs

open Sys2Proof.Machine Sys2Proof.Laws

/-! ### One attempt -/

/-- The driver operation that stores one field by readModifyWrite. -/
def settingJob (c : DrvCall) (f : RegField) (v : Byte) : DrvJob := { call := c, todo := [.rmw f v], got := [] }

/-- What attempts at a setting may do to the sensor's registers: none but the field's own changes, and the canonical
form is kept. -/
def FieldOnly (m m' : Memory) (reg : RegAddr) : Prop := m'.wf = true ∧ ∀ a, a ≠ reg.toNat → m'.read a = m.read a

theorem FieldOnly.trans {m m' m'' : Memory} {reg : RegAddr} (h : FieldOnly m m' reg) (h' : FieldOnly m' m'' reg) :
    FieldOnly m m'' reg := ⟨h'.1, fun a ha => (h'.2 a ha).trans (h.2 a ha)⟩

section
variable {u : State} {c : DrvCall} {f : RegField} {v bits : Byte} {attempt : FailedTry} {rest : List BusAnswer}

/-- A failed attempt with attempts left: the operation stays in progress and sleeps BACKOFF. -/
theorem drvStep_settingFails (hbits : (v <<< f.shift) &&& f.mask = bits) (hb : u.busIn = attempt.answers ++ rest)
    (hwf : u.sensorRegs.wf = true) (hleft : u.busTry < u.par.bus.retries) :
    ∃ m, FieldOnly u.sensorRegs m f.reg ∧
      u.drvStep (settingJob c f v) =
        { u with busIn := rest, out := u.out ++ attemptTraffic u.par.bus.addr f.reg f.mask bits attempt.got, sensorRegs := m,
                 wakeAt := u.now + u.par.bus.backoff, busTry := u.busTry + 1, drvJob := some (settingJob c f v) } := by
  obtain ⟨m, hm, hframe, hrmw⟩ := readModifyWrite_failed u f v bits attempt rest hbits hb hwf
  refine ⟨m, ⟨hm, hframe⟩, ?_⟩
  rw [State.txFail, if_pos hleft] at hrmw
  simp only [State.drvStep, settingJob, hrmw]
  rfl

/-- A failed attempt with none left: the caller gets the BusError, with no sleep. -/
theorem drvStep_settingExhausted (hc : ∃ fmt b, c = .field fmt b) (hbits : (v <<< f.shift) &&& f.mask = bits)
    (hb : u.busIn = attempt.answers ++ rest) (hwf : u.sensorRegs.wf = true) (hleft : u.busTry = u.par.bus.retries) :
    ∃ m, FieldOnly u.sensorRegs m f.reg ∧
      u.drvStep (settingJob c f v) =
        { u with busIn := rest, sensorRegs := m, busTry := 0, drvJob := none,
                 out := u.out ++ attemptTraffic u.par.bus.addr f.reg f.mask bits attempt.got ++
                   [.driver (.busFailure (u.par.bus.retries + 1) attempt.cause)] } := by
  obtain ⟨fmt, b, rfl⟩ := hc
  obtain ⟨m, hm, hframe, hrmw⟩ := readModifyWrite_failed u f v bits attempt rest hbits hb hwf
  refine ⟨m, ⟨hm, hframe⟩, ?_⟩
  rw [State.txFail, if_neg (by simp [hleft])] at hrmw
  simp only [State.drvStep, settingJob, hrmw]
  rfl

/-- An attempt that succeeds: the field is stored in the byte read, and the caller gets the byte written. -/
theorem drvStep_settingDone (hc : ∃ fmt b, c = .field fmt b) {b : Byte} {g : List Byte}
    (hbits : (v <<< f.shift) &&& f.mask = bits) (hb : u.busIn = .ok [b] :: .ok g :: rest) (hwf : u.sensorRegs.wf = true) :
    ∃ m, FieldOnly u.sensorRegs m f.reg ∧ m.read f.reg.toNat = (b &&& ~~~f.mask) ||| bits ∧
      u.drvStep (settingJob c f v) =
        { u with busIn := rest, sensorRegs := m, busTry := 0, drvJob := none,
                 out := u.out ++ attemptTraffic u.par.bus.addr f.reg f.mask bits (some b) ++
                   [.driver (.byte ((b &&& ~~~f.mask) ||| bits))] } := by
  obtain ⟨fmt, byte, rfl⟩ := hc
  have hafter : f.set b v = (b &&& ~~~f.mask) ||| bits := by rw [RegField.set, hbits]
  have hclear := clearCause_wf u f.reg 1 hwf
  refine ⟨_, ⟨wf_write _ f.reg (f.set b v) hclear, fun a ha => ?_⟩, ?_, ?_⟩
  · exact (read_write_other _ _ _ _ ha).trans (clearCause_read u f.reg a ha)
  · rw [read_write_reg _ _ _ hclear, hafter]
  · rw [settingJob, drvStep_rmw u _ f v [] [] [b] g rest hb, ← hafter]
    simp [hafter, State.drvAdvance, State.drvFinish, State.emit, drvAfter, drvResult, attemptTraffic, State.clearCause]

end

/-! ### Failed attempts -/

theorem microStep_job {u : State} {j : DrvJob} (hj : u.drvJob = some j) : u.microStep = .next (u.drvStep j) := by
  simp [State.microStep, hj]

/-- One step of a setting whose attempt fails with attempts left. -/
theorem step_settingFails {s : State} {c : DrvCall} {f : RegField} {v bits : Byte} {attempt : FailedTry} {ms : List Move}
    {rest : List BusAnswer} (hj : s.drvJob = some (settingJob c f v)) (hbits : (v <<< f.shift) &&& f.mask = bits)
    (hs : s.sched = .main :: ms) (hb : s.busIn = attempt.answers ++ rest) (hwf : s.sensorRegs.wf = true)
    (hleft : s.busTry < s.par.bus.retries) :
    ∃ t, step s = .next t ∧ Retried s t 1 ms rest (attemptTraffic s.par.bus.addr f.reg f.mask bits attempt.got) ∧
      FieldOnly s.sensorRegs t.sensorRegs f.reg := by
  obtain ⟨m, hm, hattempt⟩ :=
    drvStep_settingFails (u := ({ s with sched := ms } : State).wake) (c := c) hbits hb hwf hleft
  rw [← hj] at hattempt
  have hstep := (step_main s ms hs).trans ((microStep_job (u := ({ s with sched := ms } : State).wake) hj).trans
    (congrArg _ hattempt))
  exact ⟨_, hstep, ⟨rfl, by simp⟩, hm⟩

/-- Failed attempts of a setting, with attempts left after them. -/
theorem steps_settingFails {c : DrvCall} {f : RegField} {v bits : Byte} {ms : List Move} {rest : List BusAnswer}
    (hbits : (v <<< f.shift) &&& f.mask = bits) (fails : List FailedTry) (s : State)
    (hj : s.drvJob = some (settingJob c f v)) (hs : s.sched = List.replicate fails.length .main ++ ms)
    (hb : s.busIn = fails.flatMap FailedTry.answers ++ rest) (hwf : s.sensorRegs.wf = true)
    (hleft : s.busTry + fails.length ≤ s.par.bus.retries) :
    ∃ t, s.steps fails.length = .next t ∧
      Retried s t fails.length ms rest
        (fails.flatMap fun x => attemptTraffic s.par.bus.addr f.reg f.mask bits x.got) ∧
      FieldOnly s.sensorRegs t.sensorRegs f.reg := by
  induction fails generalizing s with
  | nil =>
    cases hs
    cases hb
    exact ⟨s, steps_zero s, Retried.refl s, hwf, fun _ _ => rfl⟩
  | cons x fails ih =>
    rw [List.length_cons] at hleft
    rw [List.flatMap_cons, List.append_assoc] at hb
    obtain ⟨u, hstep, hu, hfield⟩ := step_settingFails hj hbits hs hb hwf (by omega)
    obtain ⟨t, hsteps, ht, hfield'⟩ := ih u (hu.drvJob.trans hj) hu.sched hu.busIn hfield.1
      (by rw [hu.par, hu.busTry]; omega)
    rw [hu.par] at ht
    refine ⟨t, (steps_succ s u _ hstep).trans hsteps, ?_, hfield.trans hfield'⟩
    simpa [Nat.add_comm] using hu.trans ht

/-- The state in which a setting's first attempt is made, told as the later ones are: the operation is in progress, no
sleep is under way, and the next `n` moves are the main context's. -/
def inProgress (s : State) (j : DrvJob) (n : Nat) : State := { s.undisturbed n with drvJob := some j, wakeAt := s.now }

/-- After its failed attempts, at most RETRIES, a setting makes one more. -/
theorem steps_settingAttempt {s : State} {c : DrvCall} {f : RegField} {v bits : Byte} {fails : List FailedTry}
    {rest : List BusAnswer} (hbits : (v <<< f.shift) &&& f.mask = bits) (ht : s.busTry = 0)
    (hwf : s.sensorRegs.wf = true) (hleft : fails.length ≤ s.par.bus.retries)
    (hb : s.busIn = fails.flatMap FailedTry.answers ++ rest) :
    ∃ w m job, FieldOnly s.sensorRegs m f.reg ∧
      ((s.drvStep (settingJob c f v)).undisturbed fails.length).steps fails.length =
        .next (State.drvStep { attemptsMade s fails.length rest
          (fails.flatMap fun x => attemptTraffic s.par.bus.addr f.reg f.mask bits x.got) w m with drvJob := job }
          (settingJob c f v)) := by
  cases fails with
  | nil =>
    refine ⟨s.wakeAt, s.sensorRegs, s.drvJob, ⟨hwf, fun _ _ => rfl⟩, ?_⟩
    have hs : ({ attemptsMade s 0 rest [] s.wakeAt s.sensorRegs with drvJob := s.drvJob } : State) = s := by
      cases s
      cases ht
      cases hb
      simp [attemptsMade]
    exact congrArg (fun x : State => Host.Outcome.next (x.drvStep (settingJob c f v))) hs.symm
  | cons x fails =>
    rw [List.length_cons] at hleft
    rw [List.flatMap_cons, List.append_assoc] at hb
    obtain ⟨m, hm, hfirst⟩ := drvStep_settingFails (c := c) hbits hb hwf (by omega)
    have hu : Retried (inProgress s (settingJob c f v) (fails.length + 1))
        ((s.drvStep (settingJob c f v)).undisturbed (fails.length + 1)) 1 (s.undisturbed (fails.length + 1)).sched
        (fails.flatMap FailedTry.answers ++ rest) (attemptTraffic s.par.bus.addr f.reg f.mask bits x.got) := by
      rw [hfirst]
      exact ⟨rfl, by simp [inProgress, State.undisturbed]⟩
    obtain ⟨t, hsteps, ht', hfield⟩ := steps_settingFails (ms := .main :: s.sched) hbits fails _ hu.drvJob
      (hu.sched.trans (by simp [State.undisturbed, List.replicate_succ'])) hu.busIn (by rw [hfirst]; exact hm.1)
      (by rw [hu.par, hu.busTry]; simp [inProgress, State.undisturbed, ht]; omega)
    rw [hu.par] at ht'
    have hall := hu.trans ht'
    have hjob : ({ t with sched := s.sched } : State).wake.drvJob = some (settingJob c f v) := hall.drvJob
    rw [hfirst] at hfield
    refine ⟨t.wakeAt, t.sensorRegs, some (settingJob c f v), FieldOnly.trans hm hfield, ?_⟩
    refine (steps_add _ t _ 1 hsteps).trans
      (steps_succ t _ 0 ((step_main t s.sched hall.sched).trans ((microStep_job hjob).trans ?_)))
    rw [hall.awake ht (le_refl s.now), List.length_cons, Nat.add_comm 1]
    rfl

/-- How every setting is retried: with an attempt that succeeds within RETRIES failed ones, or with the BusError. -/
theorem settingRetried_of_plan {s : State} {fmt : Format} {byte : Byte} {f : RegField} {v bits : Byte}
    (hp : s.phase = .idle) (hj : s.drvJob = none) (hplan : drvPlan s.par (.field fmt byte) = some [.rmw f v])
    (hbits : (v <<< f.shift) &&& f.mask = bits) :
    settingRetried s (.next (s.drvCall (.field fmt byte))) f.reg f.mask bits := by
  have hcall : s.drvCall (.field fmt byte) = s.drvStep (settingJob (.field fmt byte) f v) := by
    rw [State.drvCall, if_neg (by simp [State.busy, hp, hj])]
    simp [State.drvStart, hplan, settingJob]
  rw [hcall]
  intro fails rest hwf ht
  refine ⟨fun b hleft hb => ?_, fun last hlen hlast hb => ?_⟩
  · obtain ⟨w, m, job, hm, hsteps⟩ := steps_settingAttempt hbits ht hwf hleft hb
    obtain ⟨m', hm', hread, hdone⟩ := drvStep_settingDone (u := { attemptsMade s _ _ _ w m with drvJob := job })
      ⟨fmt, byte, rfl⟩ hbits rfl hm.1
    rw [hdone] at hsteps
    refine ⟨_, _, rfl, hsteps, rfl, rfl, rfl, rfl, rfl, rfl, rfl, rfl, ?_, hread, (hm.trans hm').2, ?_⟩
    · simp [State.recordsAs, attemptsMade]
    · simp [attemptsMade]
  · obtain ⟨failed, rfl⟩ := List.getLast?_eq_some_iff.mp hlast
    have hlen' : failed.length = s.par.bus.retries := by simpa using hlen
    rw [List.flatMap_append, List.flatMap_singleton, List.append_assoc] at hb
    obtain ⟨w, m, job, hm, hsteps⟩ := steps_settingAttempt hbits ht hwf hlen'.le hb
    obtain ⟨m', hm', hdone⟩ := drvStep_settingExhausted (u := { attemptsMade s _ _ _ w m with drvJob := job })
      (attempt := last) ⟨fmt, byte, rfl⟩ hbits rfl hm.1 hlen'
    rw [hdone, hlen'] at hsteps
    refine ⟨_, _, rfl, hsteps, rfl, rfl, rfl, rfl, rfl, rfl, rfl, rfl, ?_, (hm.trans hm').2, ?_⟩
    · simp [State.recordsAs, attemptsMade]
    · simp [attemptsMade]

/-! ### The ten settings -/

/-- The value cut from a byte's field, put back, is the byte's bits of that field, in the three fields of the settings. -/
theorem field_shifted_back (p : Config.Params) (b : Byte) :
    ((gainField p).get b <<< (gainField p).shift) &&& (gainField p).mask = b &&& 0x3E ∧
    ((strikesField p).get b <<< (strikesField p).shift) &&& (strikesField p).mask = b &&& 0x30 ∧
    ((dividerField p).get b <<< (dividerField p).shift) &&& (dividerField p).mask = b &&& 0xC0 := by
  simp only [RegField.get, gainField, strikesField, dividerField]
  revert b
  decide

section
variable {s : State} (hp : s.phase = .idle) (hj : s.drvJob = none)
include hp hj

/-- A byte of the gain register that holds a preset. -/
theorem gain_settingRetried {b bits : Byte} {i : Instr} (hi : decodeGain b = .ok i) (hbits : b &&& 0x3E = bits) :
    settingRetried s (.next (s.drvCall (.field .gainReg b))) s.par.drv.regGain 0x3E bits :=
  settingRetried_of_plan hp hj (by simp [drvPlan, hi]) ((field_shifted_back s.par b).1.trans hbits)

/-- A byte of the status register. -/
theorem strikes_settingRetried {b bits : Byte} (hbits : b &&& 0x30 = bits) :
    settingRetried s (.next (s.drvCall (.field .statusReg b))) s.par.drv.regStatus 0x30 bits :=
  settingRetried_of_plan hp hj rfl ((field_shifted_back s.par b).2.1.trans hbits)

/-- A byte of the source-mask register. -/
theorem divider_settingRetried {b bits : Byte} (hbits : b &&& 0xC0 = bits) :
    settingRetried s (.next (s.drvCall (.field .srcMaskReg b))) s.par.drv.regSrcMask 0xC0 bits :=
  settingRetried_of_plan hp hj rfl ((field_shifted_back s.par b).2.2.trans hbits)

end

/-- The gain bytes decode, and their field holds the preset. -/
theorem gain_bytes (x : BitVec 2) (p : BitVec 1) :
    (decodeGain (x ++ 0b10010#5 ++ p) = .ok (.gainIndoor x p) ∧ (x ++ 0b10010#5 ++ p) &&& 0x3E = 0x24) ∧
    (decodeGain (x ++ 0b01110#5 ++ p) = .ok (.gainOutdoor x p) ∧ (x ++ 0b01110#5 ++ p) &&& 0x3E = 0x1C) := by
  revert x p
  decide

/-- The code of a status byte stands in bits [5:4]. -/
theorem strikes_bytes (hi : BitVec 2) (code : BitVec 2) (lo : BitVec 4) :
    (hi ++ code ++ lo : Byte) &&& 0x30#8 = code.setWidth 8 <<< 4 := by
  revert hi code lo
  decide

/-- The code of a source-mask byte stands in bits [7:6]. -/
theorem divider_bytes (code : BitVec 2) (lo : BitVec 6) : (code ++ lo : Byte) &&& 0xC0#8 = code.setWidth 8 <<< 6 := by
  revert code lo
  decide

/-- Settles O22: each row is a driver call whose one bus-level step is the readModifyWrite of its field. -/
theorem failedSettingIsRetriedAsAWhole : Obligations.FailedSettingIsRetriedAsAWhole := by
  intro s hp hj
  refine ⟨fun x p => ?_, fun x p => ?_, fun hi lo => ?_, fun hi lo => ?_, fun hi lo => ?_, fun hi lo => ?_,
    fun lo => ?_, fun lo => ?_, fun lo => ?_, fun lo => ?_⟩
  · exact gain_settingRetried hp hj (gain_bytes x p).1.1 (gain_bytes x p).1.2
  · exact gain_settingRetried hp hj (gain_bytes x p).2.1 (gain_bytes x p).2.2
  · exact strikes_settingRetried hp hj (strikes_bytes hi 0 lo)
  · exact strikes_settingRetried hp hj (strikes_bytes hi 1 lo)
  · exact strikes_settingRetried hp hj (strikes_bytes hi 2 lo)
  · exact strikes_settingRetried hp hj (strikes_bytes hi 3 lo)
  · exact divider_settingRetried hp hj (divider_bytes 0 lo)
  · exact divider_settingRetried hp hj (divider_bytes 1 lo)
  · exact divider_settingRetried hp hj (divider_bytes 2 lo)
  · exact divider_settingRetried hp hj (divider_bytes 3 lo)

end Sys2Proof.Proofs
end

section
/-! PROOF. The main context takes one thing at a time: requests wait while it is busy (20_memory.md R56), a step runs
the decoded word, and a split consume is three micro-steps (20_memory.md R54). -/

namespace Sys2Proof.Proofs

open Sys2Proof.Machine Sys2Proof.Laws

/-! ### Requests that wait -/

/-- Settles O17: every row but STOP tests `busy` first, and a request that finds it set waits as its word. -/
theorem requestsWaitWhileBusy : Obligations.RequestsWaitWhileBusy := by
  intro s h
  have hbusy : s.busy = true := by simpa [State.busy] using h
  have waits : ∀ (r : Request) (t : State),
      (Host.Outcome.next (if s.busy then s.wait r else t) : Host.Outcome State Fault Refusal) =
        .next { s with waiting := s.waiting ++ [r] } := fun r t => by rw [if_pos hbusy]; rfl
  exact ⟨waits _ _, waits _ _, waits _ _, fun _ => waits _ _, fun _ => waits _ _, fun _ => waits _ _,
    fun _ => waits _ _, fun _ => waits _ _, fun _ => waits _ _, fun _ => waits _ _, fun _ => waits _ _, fun _ => waits _ _,
    fun _ _ => waits _ _, fun _ _ => waits _ _, fun _ _ => waits _ _, fun _ _ => waits _ _, fun _ _ => waits _ _,
    fun _ _ => waits _ _, fun _ => waits _ _, fun _ => waits _ _, fun _ => waits _ _, fun _ => waits _ _⟩

/-! ### The step runs the decoded word -/

/-- Of the words of port `cmd`, STOP is 0x2000 alone. -/
theorem eq_of_decodeCmd_stop {w : CmdWord} (h : decodeCmd w = .stop) : w = 0x2000 := by
  have hop : (w.extractLsb' 12 4).toNat = w.toNat / 4096 % 16 := by simp [Nat.shiftRight_eq_div_pow]
  have harg : (w.extractLsb' 0 12).toNat = w.toNat % 4096 := by simp
  have hw := w.isLt
  unfold decodeCmd at h
  dsimp only at h
  split at h
  case h_3 htwo =>
    split at h
    · next hzero =>
      rw [hop] at htwo
      rw [hzero] at harg
      apply BitVec.eq_of_toNat_eq
      change 0 = _ at harg
      change _ = 8192
      omega
    · cases h
  case h_2 | h_4 | h_5 => split at h <;> cases h
  all_goals cases h

/-- A register byte on a driver port that decodes is the instruction it encodes. -/
theorem driverWord_of_decode {f : Format} {b : Byte} {i : Instr} (hf : f = .gainReg ∨ f = .statusReg ∨ f = .srcMaskReg)
    (h : decode f b.toNat = .ok i) : driverWord f b = some i := by
  rcases hf with rfl | rfl | rfl
  · rw [decode_gain] at h
    simp [driverWord, h, Except.toOption]
  · rw [decode_status] at h
    cases h
    rfl
  · rw [decode_srcMask] at h
    cases h
    rfl

theorem startCall_field {s : State} {f : Format} {b : Byte} {i : Instr}
    (hf : f = .gainReg ∨ f = .statusReg ∨ f = .srcMaskReg) (h : decode f b.toNat = .ok i) :
    s.startCall (.field f b) = exec i s := by
  simp [State.startCall, driverWord_of_decode hf h]

theorem step_cmd_arrives {s : State} {ms : List Move} {w : CmdWord} (h : s.sched = .cmd w :: ms) :
    step s = ({ s with sched := ms } : State).cmdArrives w := by
  simp [step, State.stepMove, State.nextMove, h, State.move]

theorem step_driver_waits {s : State} {ms : List Move} {c : DrvCall} (h : s.sched = .driver c :: ms)
    (hw : s.waiting ≠ []) : step s = .next { s with sched := ms, waiting := s.waiting ++ [.drv c] } := by
  simp [step, State.stepMove, State.nextMove, h, State.move, State.callArrives, hw, State.wait]

section
variable {u : State} {i : Instr} (hj : u.drvJob = none)
include hj

/-- The free main context runs the command word that waits first. -/
theorem microStep_takesCommand {w : CmdWord} {ws : List Request} (hp : u.phase = .idle) (hw : u.waiting = .cmd w :: ws)
    (hd : decode .cmd16 w.toNat = .ok i) : u.microStep = exec i { u with waiting := ws } := by
  rw [decode_cmd] at hd
  cases hd
  simp [State.microStep, hj, hp, State.stepIdle, hw]

/-- The free main context runs the register setting that waits first. -/
theorem microStep_takesSetting {f : Format} {b : Byte} {ws : List Request} (hp : u.phase = .idle)
    (hw : u.waiting = .drv (.field f b) :: ws) (hf : f = .gainReg ∨ f = .statusReg ∨ f = .srcMaskReg)
    (hd : decode f b.toNat = .ok i) : u.microStep = exec i { u with waiting := ws } := by
  simp [State.microStep, hj, hp, State.stepIdle, hw, startCall_field hf hd]

/-- S_CLASSIFY runs the source code in hand. -/
theorem microStep_classifies (hp : u.phase = .sClassify) (hd : decode .src4 u.work.code.toNat = .ok i) :
    u.microStep = exec i u := by
  rw [decode_src] at hd
  cases hd
  simp [State.microStep, hj, hp]

/-- The distance read runs the byte it returns. -/
theorem microStep_runsDistance {b : Byte} {rest : List BusAnswer} (hp : u.phase = .sReadDist)
    (hb : u.busIn = .ok [b] :: rest) (hd : decode .regByte b.toNat = .ok i) :
    u.microStep = exec i { (u.clearCause u.par.sensor.regDist 1) with
      busIn := rest, busTry := 0, out := u.out ++ [.busRead u.par.bus.addr u.par.sensor.regDist 1] } := by
  simp only [State.microStep, hj, hp, State.stepReadDist, memRead_ok u _ 1 [b] rest hb, answerBytes_one, runWord]
  simp [hd]

/-- The last energy read runs the word that its byte completes. -/
theorem microStep_runsEnergy {h m l : Byte} {tl : List Byte} {rest : List BusAnswer} (hp : u.phase = .sReadEnergy)
    (he : u.work.energyBytes = l :: m :: tl) (hb : u.busIn = .ok [h] :: rest)
    (hd : decode .regByte3 (h ++ m ++ l).toNat = .ok i) :
    u.microStep = exec i { (u.clearCause u.par.sensor.regMsb 1) with
      busIn := rest, busTry := 0, out := u.out ++ [.busRead u.par.bus.addr u.par.sensor.regMsb 1] } := by
  simp only [State.microStep, hj, hp, State.stepReadEnergy, he, memRead_ok u _ 1 [h] rest hb, answerBytes_one, runWord]
  simp [hd]

end

/-- Settles O32: each word's way to exec, by the move that takes it. -/
theorem stepRunsTheDecodedInstruction : Obligations.StepRunsTheDecodedInstruction := by
  intro s ms
  refine ⟨step_irq s ms, fun w i hs hw hd => ?_, fun hs => ?_, fun w hs hne hw => ?_,
    fun c hs hw => step_driver_waits hs hw, fun f b i hs hw hf hd => ?_, fun hs hj => ?_⟩
  · rw [decode_cmd] at hd
    cases hd
    exact step_cmd s ms w hs hw
  · rw [step_cmd_arrives hs, State.cmdArrives, show decodeCmd 0x2000 = .stop by decide, if_pos (by simp)]
  · have hstop : decodeCmd w ≠ .stop := fun h => hne (eq_of_decodeCmd_stop h)
    rw [step_cmd_arrives hs, State.cmdArrives, if_neg (by simp [hw, hstop])]
    rfl
  · rw [step_driver s ms _ hs hw, startCall_field hf hd]
  · have awake : ({ s with sched := ms } : State).wake.drvJob = none := hj
    rw [step_main s ms hs]
    exact ⟨fun _ _ _ hp hw hd => microStep_takesCommand awake hp hw hd,
      fun _ _ _ _ hp hw hf hd => microStep_takesSetting awake hp hw hf hd,
      fun _ hp hd => microStep_classifies awake hp hd,
      fun _ _ _ hp hb hd => microStep_runsDistance awake hp hb hd,
      fun _ _ _ _ _ _ hp he hb hd => microStep_runsEnergy awake hp he hb hd⟩

/-! ### The split consume -/

/-- The first stage reads PENDING, below the cap. -/
theorem stepConsumeSplit_readPending {u : State} (h : u.work.split = .readPending) :
    u.stepConsumeSplit = if u.drainN = u.par.drainCap ∨ u.pending = false then u.exitDrain
      else { u with work := { u.work with split := .compare } } := by
  unfold State.stepConsumeSplit
  rw [h]
  by_cases hcap : u.drainN = u.par.drainCap
  · simp [hcap]
  · cases hpend : u.pending <;> simp [hcap]

/-- The second stage compares the dwell. -/
theorem stepConsumeSplit_compare {u : State} (h : u.work.split = .compare) :
    u.stepConsumeSplit = if u.now - u.lastEdge < u.par.tDwell then u.exitDrain
      else { u with work := { u.work with split := .clear } } := by
  unfold State.stepConsumeSplit
  rw [h]
  by_cases hdwell : u.now - u.lastEdge < u.par.tDwell
  · simp [State.dwellElapsed, hdwell]
  · simp [State.dwellElapsed, hdwell, Nat.not_lt.mp hdwell]

/-- The third stage clears PENDING and counts the capture. -/
theorem stepConsumeSplit_clear {u : State} (h : u.work.split = .clear) :
    u.stepConsumeSplit = ({ u with pending := false } : State).consumed := by
  unfold State.stepConsumeSplit
  rw [h]

/-- Settles O35, stage by stage. -/
theorem splitConsumeIsThreeMicroSteps : Obligations.SplitConsumeIsThreeMicroSteps := by
  intro s ms hs hj hp hsplit
  have hstep : step s = .next ({ s with sched := ms } : State).wake.stepConsumeSplit := by
    rw [step_main s ms hs]
    simp [State.microStep, hj, hp, State.stepConsume, hsplit]
  rw [hstep]
  exact ⟨fun h => congrArg _ (stepConsumeSplit_readPending h), fun h => congrArg _ (stepConsumeSplit_compare h),
    fun h => congrArg _ (stepConsumeSplit_clear h)⟩

end Sys2Proof.Proofs
end

section
/-! PROOF. No operation of the block writes the sensor (20_memory.md R43, R49): its micro-steps put out bus reads,
responses and messages, and a read is the only one of them that reaches the sensor's registers. -/

namespace Sys2Proof.Proofs

open Sys2Proof.Machine Sys2Proof.Laws

/-! ### Steps that leave the sensor alone -/

/-- What comes out from `s` to `t` holds no bus write. -/
def PutsNoWrite (s t : State) : Prop := ∃ new, t.out = s.out ++ new ∧ ∀ a r bs, Output.busWrite a r bs ∉ new

theorem PutsNoWrite.trans {s t u : State} (h : PutsNoWrite s t) (k : PutsNoWrite t u) : PutsNoWrite s u := by
  obtain ⟨new, hnew, hno⟩ := h
  obtain ⟨more, hmore, hnone⟩ := k
  refine ⟨new ++ more, by rw [hmore, hnew, List.append_assoc], fun a r bs hmem => ?_⟩
  rcases List.mem_append.mp hmem with hm | hm
  · exact hno a r bs hm
  · exact hnone a r bs hm

/-- No bus write comes out, and the sensor's registers are as they were. -/
structure LeavesSensor (s t : State) : Prop where
  out : PutsNoWrite s t
  regs : t.sensorRegs = s.sensorRegs

theorem LeavesSensor.trans {s t u : State} (h : LeavesSensor s t) (k : LeavesSensor t u) : LeavesSensor s u :=
  ⟨h.out.trans k.out, k.regs.trans h.regs⟩

/-- Nothing comes out. -/
theorem leavesSensor_of_silent {s t : State} (hout : t.out = s.out) (hregs : t.sensorRegs = s.sensorRegs) :
    LeavesSensor s t := ⟨⟨[], by rw [hout, List.append_nil], by simp⟩, hregs⟩

/-- One thing comes out that is no bus write. -/
theorem leavesSensor_of_output {s t : State} {o : Output} (ho : ∀ a r bs, o ≠ .busWrite a r bs)
    (hout : t.out = s.out ++ [o]) (hregs : t.sensorRegs = s.sensorRegs) : LeavesSensor s t :=
  ⟨⟨[o], hout, fun a r bs hm => ho a r bs (List.mem_singleton.mp hm).symm⟩, hregs⟩

theorem leavesSensor_of_response {s t : State} {st : Status} {d : RspData} (hout : t.out = s.out ++ [.rsp st d])
    (hregs : t.sensorRegs = s.sensorRegs) : LeavesSensor s t := leavesSensor_of_output (by simp) hout hregs

/-! ### The sinks -/

theorem drawSink_out (s : State) : s.drawSink.2.out = s.out := by
  unfold State.drawSink
  split <;> rfl

theorem emitPublish_leavesSensor (s : State) {o : Output} (ho : ∀ a r bs, o ≠ .busWrite a r bs) :
    LeavesSensor s (s.emitPublish o) := by
  have hout := drawSink_out (s.emit o)
  have hregs := drawSink_regs (s.emit o)
  unfold State.emitPublish
  split
  · next heq =>
    rw [heq] at hout hregs
    exact leavesSensor_of_output ho hout hregs
  · next heq =>
    rw [heq] at hout hregs
    exact (leavesSensor_of_output ho hout hregs).trans (leavesSensor_of_output (by simp) rfl rfl)

theorem eventMessage_ne_write (s : State) (e : Event) (a : BusAddr) (r : RegAddr) (bs : List Byte) :
    s.eventMessage e ≠ .busWrite a r bs := by simp [State.eventMessage]

theorem stateMessage_ne_write (s : State) (a : BusAddr) (r : RegAddr) (bs : List Byte) :
    s.stateMessage ≠ .busWrite a r bs := by simp [State.stateMessage]

theorem forward_leavesSensor (s : State) (e : Event) : LeavesSensor s (s.forward e) :=
  (emitPublish_leavesSensor s (eventMessage_ne_write s e)).trans
    (emitPublish_leavesSensor _ (stateMessage_ne_write _))

theorem observe_leavesSensor (s : State) (e : Event) : LeavesSensor s (s.observe e) := by
  refine ⟨?_, observe_regs s e⟩
  unfold State.observe
  split
  · exact ⟨_, drawSink_out _, by simp⟩
  · exact ⟨[], (List.append_nil _).symm, by simp⟩

theorem throttle_leavesSensor (s : State) (e : Event) : LeavesSensor s (s.throttle e) := by
  unfold State.throttle
  split
  · have hmark : LeavesSensor s (s.markForwarded e) := leavesSensor_of_silent rfl rfl
    exact hmark.trans (forward_leavesSensor _ e)
  · exact leavesSensor_of_silent rfl rfl

theorem keepalive_leavesSensor (s : State) : LeavesSensor s s.keepalive := by
  rcases keepalive_cases s with ⟨_, hk⟩ | ⟨_, hk⟩ <;> rw [hk]
  · exact (emitPublish_leavesSensor s (stateMessage_ne_write s)).trans (leavesSensor_of_silent rfl rfl)
  · exact leavesSensor_of_silent rfl rfl

/-! ### The micro-steps that read nothing -/

theorem returnEvent_leavesSensor (u : State) (ev : Option Event) : LeavesSensor u (u.returnEvent ev) := by
  rcases returnEvent_cases u ev with ⟨_, h⟩ | ⟨_, e, _, h⟩ | ⟨_, _, h⟩ <;> rw [h]
  · exact leavesSensor_of_response rfl rfl
  · exact leavesSensor_of_silent rfl rfl
  · exact leavesSensor_of_silent rfl rfl

theorem stepEntry_leavesSensor (u : State) : LeavesSensor u u.stepEntry := by
  unfold State.stepEntry
  split
  · exact leavesSensor_of_silent rfl rfl
  · exact leavesSensor_of_response rfl rfl

theorem stepConsume_leavesSensor (u : State) : LeavesSensor u u.stepConsume := by
  refine leavesSensor_of_silent ?_ (stepConsume_regs u)
  unfold State.stepConsume
  split
  · unfold State.stepConsumeSplit
    cases u.work.split with
    | readPending => dsimp only; split; rfl; split <;> rfl
    | compare => dsimp only; split <;> rfl
    | clear => rfl
  · unfold State.stepConsumeWhole
    rcases consume_cases u with ⟨_, _, hc⟩ | ⟨_, hc⟩ <;> rw [hc] <;> split <;> rfl

theorem stepAppend_leavesSensor (u : State) : LeavesSensor u u.stepAppend := by
  unfold State.stepAppend
  split <;> exact leavesSensor_of_silent rfl rfl

theorem stepObserve_leavesSensor (u : State) : LeavesSensor u u.stepObserve := by
  unfold State.stepObserve
  split
  · next e _ => exact (observe_leavesSensor u e).trans (leavesSensor_of_silent rfl rfl)
  · exact leavesSensor_of_silent rfl rfl

theorem stepThrottle_leavesSensor (u : State) : LeavesSensor u u.stepThrottle := by
  unfold State.stepThrottle
  split
  · next e _ => exact (throttle_leavesSensor u e).trans (leavesSensor_of_silent rfl rfl)
  · exact leavesSensor_of_silent rfl rfl

theorem stepKeepalive_leavesSensor (u : State) : LeavesSensor u u.stepKeepalive := by
  rw [stepKeepalive_eq]
  refine (keepalive_leavesSensor u).trans ?_
  unfold endService
  split
  · exact leavesSensor_of_silent rfl rfl
  · exact leavesSensor_of_response rfl rfl

theorem stepBetween_leavesSensor (u : State) : LeavesSensor u u.stepBetween := by
  unfold State.stepBetween
  split
  · exact leavesSensor_of_response rfl rfl
  · exact leavesSensor_of_silent rfl rfl

/-- A phase without a read. -/
theorem not_reading {s : State} (h : s.readRegister = none) :
    s.phase ≠ .sReadInt ∧ s.phase ≠ .sReadDist ∧ s.phase ≠ .sReadEnergy := by
  unfold State.readRegister at h
  refine ⟨fun hp => ?_, fun hp => ?_, fun hp => ?_⟩
  · simp [hp] at h
  · simp [hp] at h
  · match he : s.work.energyBytes with
    | [] | [_] | _ :: _ :: _ => simp [hp, he] at h

/-- During an operation of the block, a micro-step without a read leaves the sensor alone. -/
theorem effect_leavesSensor {u t : State} (hj : u.drvJob = none) (hp : u.phase ≠ .idle) (hr : u.readRegister = none)
    (h : Effect u t) : LeavesSensor u t := by
  obtain ⟨hint, hdist, henergy⟩ := not_reading hr
  cases h with
  | idle | sleep | lightning => exact leavesSensor_of_silent rfl rfl
  | accept _ _ _ _ hidle => exact absurd hidle hp
  | driver j hjob => rw [hj] at hjob; cases hjob
  | entry => exact stepEntry_leavesSensor u
  | consume => exact stepConsume_leavesSensor u
  | plain | noEvent => exact returnEvent_leavesSensor u _
  | append => exact stepAppend_leavesSensor u
  | observe => exact stepObserve_leavesSensor u
  | throttle => exact stepThrottle_leavesSensor u
  | keepalive => exact stepKeepalive_leavesSensor u
  | between => exact stepBetween_leavesSensor u
  | readInt _ hread => exact absurd hread hint
  | dist _ _ _ _ hread => exact absurd hread hdist
  | energyByte _ _ hread | energy _ _ _ _ hread => exact absurd hread henergy
  | readRetry _ _ _ hread | readError _ _ _ _ _ hread => exact absurd hread (not_or.mpr ⟨hdist, henergy⟩)

/-! ### The micro-steps that read -/

theorem drawBus_out (s : State) : s.drawBus.2.out = s.out := by
  unfold State.drawBus
  split <;> rfl

/-- An attempt of a read puts out the read alone. -/
theorem memRead_out (s : State) (r : RegAddr) (n : Nat) :
    (s.memRead r n).2.out = s.out ++ [.busRead s.par.bus.addr r n] := by
  have hout := drawBus_out (s.emit (.busRead s.par.bus.addr r n))
  unfold State.memRead State.busReadOnce
  generalize (s.emit (.busRead s.par.bus.addr r n)).drawBus = drawn at hout
  obtain ⟨_ | ⟨c, reached⟩, u⟩ := drawn
  · exact hout
  · rcases txFail_cases (α := List Byte) (if reached then u.clearCause r n else u) c with ⟨_, h⟩ | ⟨_, h⟩ <;>
      cases reached <;> (dsimp only; rw [h]; exact hout)

theorem afterAttempt_leavesSensor (p : Tx (List Byte) × State) : LeavesSensor p.2 (afterAttempt p) := by
  obtain ⟨bs | _ | ⟨n, c⟩, v⟩ := p
  · obtain ⟨_, _, _, h, hno⟩ := takeByte_frame v (bs.headD 0)
    exact ⟨⟨_, (congrArg State.out h :), hno⟩, (congrArg State.sensorRegs h :)⟩
  · exact leavesSensor_of_silent rfl rfl
  · exact leavesSensor_of_response rfl rfl

/-- A micro-step of a read phase puts out no bus write, and clears at most the source code, where it reads that
register. -/
theorem microStep_reads {u t : State} {reg : RegAddr} (hj : u.drvJob = none) (hr : u.readRegister = some reg)
    (h : u.microStep = .next t) :
    PutsNoWrite u t ∧
      ∃ cleared, t.registersAfterReads u cleared ∧ (cleared = true → reg = u.par.sensor.regInt) := by
  rw [microStep_read hj hr] at h
  cases h
  have hafter := afterAttempt_leavesSensor (u.memRead reg 1)
  have hread : PutsNoWrite u (u.memRead reg 1).2 := ⟨_, memRead_out u reg 1, by simp⟩
  obtain ⟨cleared, hregs, hwhich⟩ := memRead_registers u reg
  refine ⟨hread.trans hafter.out, cleared, ?_, hwhich⟩
  simpa only [State.registersAfterReads, State.registersAsBut, hafter.regs] using hregs

/-! ### The moves -/

@[simp] theorem awake_out (s : State) : (awake s).out = s.out := by obtain ⟨ms, n, h⟩ := awake_eq s; rw [h]
@[simp] theorem awake_sensorRegs (s : State) : (awake s).sensorRegs = s.sensorRegs := by
  obtain ⟨ms, n, h⟩ := awake_eq s; rw [h]
@[simp] theorem awake_readRegister (s : State) : (awake s).readRegister = s.readRegister := by
  obtain ⟨ms, n, h⟩ := awake_eq s; rw [h]; rfl

theorem step_main_awake {s : State} (h : s.nextMove.1 = .main) : step s = (awake s).microStep := by
  simp [step, State.stepMove, h, State.move, awake]

/-- During an operation a request waits, or is a STOP. -/
theorem accepts_leavesSensor {u t : State} (hp : u.phase ≠ .idle) (h : Accepts u t) : LeavesSensor u t := by
  cases h with
  | waits => exact leavesSensor_of_silent rfl rfl
  | stop => exact leavesSensor_of_response rfl rfl
  | refused hidle | start hidle | service hidle | run hidle | readEvent _ hidle | notReady hidle | setObserver _ hidle
  | tail _ hidle | driver _ hidle => exact absurd hidle hp

/-- During an operation, a move that is not the main context's puts out no bus write, and leaves the registers alone
unless it is the sensor's. -/
theorem moved_leavesSensor {u t : State} {m : Move} (hp : u.phase ≠ .idle) (hm : m ≠ .main) (h : Moved u m t) :
    PutsNoWrite u t ∧ ((∀ r b, m ≠ .sensor r b) → t.sensorRegs = u.sensorRegs) := by
  have leaves : ∀ {v}, LeavesSensor u v →
      PutsNoWrite u v ∧ ((∀ r b, m ≠ .sensor r b) → v.sensorRegs = u.sensorRegs) := fun l => ⟨l.out, fun _ => l.regs⟩
  cases h with
  | main => exact absurd rfl hm
  | sensor r b => exact ⟨⟨[], (List.append_nil _).symm, by simp⟩, fun hs => absurd rfl (hs r b)⟩
  | cmd _ _ ha | driver _ _ ha => exact leaves (accepts_leavesSensor hp ha)
  | _ => exact leaves (leavesSensor_of_silent rfl rfl)

/-- Settles O57: the main context's moves by its phase's read, the others by what they are. -/
theorem noOperationOfTheBlockWritesTheSensor : Obligations.NoOperationOfTheBlockWritesTheSensor := by
  intro s t hp hj h
  by_cases hm : s.nextMove.1 = .main
  · rw [step_main_awake hm] at h
    cases hr : s.readRegister with
    | none =>
      have l := effect_leavesSensor (u := awake s) (by simpa using hj) (by simpa using hp) (by simpa using hr)
        (microStep_effect _ _ h)
      exact ⟨by simpa [PutsNoWrite] using l.out,
        fun _ => ⟨false, registersAfterReads_of_eq (by simpa using l.regs), by simp⟩⟩
    | some reg =>
      obtain ⟨hout, cleared, hregs, hwhich⟩ := microStep_reads (by simpa using hj) (by simpa using hr) h
      refine ⟨by simpa [PutsNoWrite] using hout, fun _ => ⟨cleared, ?_, fun hc => ⟨hm, ?_⟩⟩⟩
      · simpa [State.registersAfterReads, State.registersAsBut] using hregs
      · rw [hwhich hc, awake_par]
  · obtain ⟨hout, hregs⟩ := moved_leavesSensor (by rwa [nextMove_phase]) hm (step_moved s t h)
    obtain ⟨ms, n, hn⟩ := nextMove_same s
    rw [hn] at hout hregs
    exact ⟨hout, fun hs => ⟨false, registersAfterReads_of_eq (hregs hs), by simp⟩⟩

end Sys2Proof.Proofs
end

section
/-! PROOF. The decoder and the encoder undo each other, format by format, because a word is its fields side by side
(30_encoding.md R70 to R82); the words that decode to nothing; and the command words that are refused (R78). -/

namespace Sys2Proof.Proofs

open Sys2Proof.Machine Sys2Proof.Laws

/-! ### Words and their fields -/

/-- Two fields side by side, in arithmetic. -/
theorem append_toNat {m n : Nat} (x : BitVec m) (y : BitVec n) : (x ++ y).toNat = x.toNat * 2 ^ n + y.toNat := by
  rw [BitVec.toNat_append, ← Nat.shiftLeft_add_eq_or_of_lt y.isLt, Nat.shiftLeft_eq]

section
variable {a b c : Nat}

theorem threeFields_high (x : BitVec a) (y : BitVec b) (z : BitVec c) : (x ++ y ++ z).extractLsb' (c + b) a = x := by
  rw [BitVec.extractLsb'_append_eq_of_le (Nat.le_add_right c b), Nat.add_sub_cancel_left,
    BitVec.extractLsb'_append_eq_left]

theorem threeFields_middle (x : BitVec a) (y : BitVec b) (z : BitVec c) : (x ++ y ++ z).extractLsb' c b = y := by
  rw [BitVec.extractLsb'_append_eq_of_le (Nat.le_refl c), Nat.sub_self, BitVec.extractLsb'_append_eq_right]

/-- A word is its three fields side by side. -/
theorem threeFields_join (w : BitVec (a + b + c)) :
    w.extractLsb' (c + b) a ++ w.extractLsb' c b ++ w.extractLsb' 0 c = w := by
  rw [BitVec.extractLsb'_append_extractLsb'_eq_extractLsb' rfl, BitVec.extractLsb'_append_extractLsb']

end

/-- The number on a port of `n` bits is a word of `n` bits. -/
theorem exists_word {n w : Nat} (h : w < 2 ^ n) : ∃ b : BitVec n, b.toNat = w := ⟨.ofNatLT w h, rfl⟩

/-- A word that decodes fits its port. -/
theorem decode_fits {f : Format} {w : Nat} {i : Instr} (h : decode f w = .ok i) : w < 2 ^ f.bits := by
  unfold decode at h
  split at h
  · cases h
  · next hw => exact Nat.lt_of_not_le hw

/-- The instruction stands for the word `w` of format `f`. -/
def StandsFor (i : Instr) (f : Format) (w : Nat) : Prop := i.wellFormed = true ∧ i.format = f ∧ encode i = w

/-! ### Command words (30_encoding.md R72, R73, R78) -/

theorem cmdOp_toNat (w : CmdWord) : (w.extractLsb' 12 4).toNat = w.toNat / 4096 := by
  have hw := w.isLt
  rw [BitVec.extractLsb'_toNat, Nat.shiftRight_eq_div_pow]
  omega

theorem cmdArg_toNat (w : CmdWord) : (w.extractLsb' 0 12).toNat = w.toNat % 4096 := BitVec.extractLsb'_toNat 0 12 w

theorem cmdWord_op (op : BitVec 4) (arg : Arg12) : (cmdWord op arg).extractLsb' 12 4 = op :=
  BitVec.extractLsb'_append_eq_left

theorem cmdWord_arg (op : BitVec 4) (arg : Arg12) : (cmdWord op arg).extractLsb' 0 12 = arg :=
  BitVec.extractLsb'_append_eq_right

/-- A word whose `op` is known is that `op` beside the word's `arg`. -/
theorem cmdWord_of_op {w : CmdWord} (op : BitVec 4) (h : (w.extractLsb' 12 4).toNat = op.toNat) :
    cmdWord op (w.extractLsb' 0 12) = w := by
  rw [← BitVec.eq_of_toNat_eq h]
  exact BitVec.extractLsb'_append_extractLsb'

/-- From `op` 8 on the top bit is set, and the other 15 bits are the operand. -/
theorem one_append_of_op_ge {w : CmdWord} (h : 8 ≤ (w.extractLsb' 12 4).toNat) : 1#1 ++ w.extractLsb' 0 15 = w := by
  have top : w.extractLsb' 15 1 = 1#1 := by
    have hw := w.isLt
    rw [cmdOp_toNat] at h
    apply BitVec.eq_of_toNat_eq
    rw [BitVec.extractLsb'_toNat, Nat.shiftRight_eq_div_pow]
    change _ = 1
    omega
  rw [← top]
  exact BitVec.extractLsb'_append_extractLsb'

theorem op_ge_of_one_append (arg : BitVec 15) : 8 ≤ ((1#1 ++ arg : CmdWord).extractLsb' 12 4).toNat := by
  have hw : (1#1 ++ arg : CmdWord).toNat = 1 * 2 ^ 15 + arg.toNat := append_toNat 1#1 arg
  rw [cmdOp_toNat, hw]
  omega

theorem eight_le_of_ne {n : Nat} (h0 : n ≠ 0) (h1 : n ≠ 1) (h2 : n ≠ 2) (h3 : n ≠ 3) (h4 : n ≠ 4) (h5 : n ≠ 5)
    (h6 : n ≠ 6) (h7 : n ≠ 7) : 8 ≤ n := by omega

/-- The ops 1 to 4: with a zero `arg` the word is the command itself, with any other the row after it. -/
theorem standsFor_of_argTest {w : CmdWord} (op : BitVec 4) {i : Instr} {j : Arg12 → Instr}
    (hop : (w.extractLsb' 12 4).toNat = op.toNat) (hi : StandsFor i .cmd16 (cmdWord op 0).toNat)
    (hj : ∀ arg, arg ≠ 0 → StandsFor (j arg) .cmd16 (cmdWord op arg).toNat) :
    StandsFor (if w.extractLsb' 0 12 = 0 then i else j (w.extractLsb' 0 12)) .cmd16 w.toNat := by
  have hw := cmdWord_of_op op hop
  split
  · next hzero => rwa [← hw, hzero]
  · next hnz => simpa only [hw] using hj _ hnz

/-- Encoding undoes decoding on port `cmd`. -/
theorem decodeCmd_standsFor (w : CmdWord) : StandsFor (decodeCmd w) .cmd16 w.toNat := by
  unfold decodeCmd
  dsimp only
  split
  case h_1 hop => exact ⟨rfl, rfl, congrArg BitVec.toNat (cmdWord_of_op 0 hop)⟩
  case h_2 hop => exact standsFor_of_argTest 1 hop ⟨rfl, rfl, rfl⟩ fun _ h => ⟨bne_iff_ne.mpr h, rfl, rfl⟩
  case h_3 hop => exact standsFor_of_argTest 2 hop ⟨rfl, rfl, rfl⟩ fun _ h => ⟨bne_iff_ne.mpr h, rfl, rfl⟩
  case h_4 hop => exact standsFor_of_argTest 3 hop ⟨rfl, rfl, rfl⟩ fun _ h => ⟨bne_iff_ne.mpr h, rfl, rfl⟩
  case h_5 hop => exact standsFor_of_argTest 4 hop ⟨rfl, rfl, rfl⟩ fun _ h => ⟨bne_iff_ne.mpr h, rfl, rfl⟩
  case h_6 hop => exact ⟨rfl, rfl, congrArg BitVec.toNat (cmdWord_of_op 5 hop)⟩
  case h_7 hop => exact ⟨rfl, rfl, congrArg BitVec.toNat (cmdWord_of_op 6 hop)⟩
  case h_8 hop => exact ⟨rfl, rfl, congrArg BitVec.toNat (cmdWord_of_op 7 hop)⟩
  case h_9 h0 h1 h2 h3 h4 h5 h6 h7 =>
    exact ⟨rfl, rfl, congrArg BitVec.toNat (one_append_of_op_ge (eight_le_of_ne h0 h1 h2 h3 h4 h5 h6 h7))⟩

theorem decodeCmd_one_append (arg : BitVec 15) : decodeCmd (1#1 ++ arg) = .reservedOp8F arg := by
  have hop := op_ge_of_one_append arg
  unfold decodeCmd
  dsimp only
  split
  case h_9 => rw [BitVec.extractLsb'_append_eq_right]
  all_goals omega

/-- Decoding undoes encoding on port `cmd`. -/
theorem decodeCmd_encodeCmd {i : Instr} (hf : i.format = .cmd16) (hw : i.wellFormed = true) :
    decodeCmd (encodeCmd i) = i := by
  cases i with
  | start | stop | service | run => decide
  | readEvent | setObserver | tail | reservedOp0 =>
    simp only [encodeCmd, decodeCmd, cmdWord_op, cmdWord_arg]
    rfl
  | startNonzeroArg | stopNonzeroArg | serviceNonzeroArg | runNonzeroArg =>
    simp only [encodeCmd, decodeCmd, cmdWord_op, cmdWord_arg]
    exact if_neg (by simpa [Instr.wellFormed] using hw)
  | reservedOp8F arg => exact decodeCmd_one_append arg
  | _ => cases hf

theorem encode_of_cmd {i : Instr} (hf : i.format = .cmd16) : encode i = (encodeCmd i).toNat := by
  cases i with
  | start | stop | service | run | readEvent | setObserver | tail | reservedOp0 | reservedOp8F | startNonzeroArg
  | stopNonzeroArg | serviceNonzeroArg | runNonzeroArg => rfl
  | _ => cases hf

/-! ### Source codes (30_encoding.md R71) -/

/-- The four rows share out the 16 codes, and each keeps the bits its test leaves open. -/
theorem decodeSrc_standsFor (c : Code4) : StandsFor (decodeSrc c) .src4 c.toNat := by
  unfold StandsFor
  revert c
  decide

theorem decode_encode_src {i : Instr} (hf : i.format = .src4) : decode .src4 (encode i) = .ok i := by
  have row : ∀ {c : Code4}, decodeSrc c = i → encode i = c.toNat → decode .src4 (encode i) = .ok i := by
    intro c hd he
    rw [he, decode_src, hd]
  cases i with
  | srcLightning x => exact row (c := 1#1 ++ x) (by revert x; decide) rfl
  | srcDisturber x => exact row (c := 0b01#2 ++ x) (by revert x; decide) rfl
  | srcNoise x => exact row (c := 0b00#2 ++ x ++ 1#1) (by revert x; decide) rfl
  | srcNone x => exact row (c := 0b00#2 ++ x ++ 0#1) (by revert x; decide) rfl
  | _ => cases hf

/-! ### Register bytes (41_register_codecs.md R102, R103, R105) -/

theorem decodeGain_standsFor {b : Byte} {i : Instr} (h : decodeGain b = .ok i) : StandsFor i .gainReg b.toNat := by
  have join : ∀ {p : BitVec 5}, b.extractLsb' 1 5 = p → b.extractLsb' 6 2 ++ p ++ b.extractLsb' 0 1 = b := by
    rintro _ rfl
    exact threeFields_join (a := 2) (b := 5) (c := 1) b
  unfold decodeGain at h
  split at h
  · next hp => cases h; exact ⟨rfl, rfl, congrArg BitVec.toNat (join hp)⟩
  · split at h
    · next hp => cases h; exact ⟨rfl, rfl, congrArg BitVec.toNat (join hp)⟩
    · cases h

/-- A status byte whose code is known. -/
theorem statusByte_of_code {b : Byte} (code : BitVec 2) (h : (b.extractLsb' 4 2).toNat = code.toNat) :
    (b.extractLsb' 6 2 ++ code ++ b.extractLsb' 0 4 : Byte).toNat = b.toNat := by
  rw [← BitVec.eq_of_toNat_eq h]
  exact congrArg BitVec.toNat (threeFields_join (a := 2) (b := 2) (c := 4) b)

/-- A source-mask byte whose code is known. -/
theorem srcMaskByte_of_code {b : Byte} (code : BitVec 2) (h : (b.extractLsb' 6 2).toNat = code.toNat) :
    (code ++ b.extractLsb' 0 6 : Byte).toNat = b.toNat := by
  rw [← BitVec.eq_of_toNat_eq h]
  exact congrArg BitVec.toNat (BitVec.extractLsb'_append_extractLsb' (w := 2) (len := 6))

theorem code_toNat_eq_three {c : BitVec 2} (h0 : c.toNat ≠ 0) (h1 : c.toNat ≠ 1) (h2 : c.toNat ≠ 2) :
    c.toNat = (3 : BitVec 2).toNat := by
  have := c.isLt
  change _ = 3
  omega

theorem decodeStrikes_standsFor (b : Byte) : StandsFor (decodeStrikes b) .statusReg b.toNat := by
  unfold decodeStrikes
  dsimp only
  split
  case h_1 h => exact ⟨rfl, rfl, statusByte_of_code 0 h⟩
  case h_2 h => exact ⟨rfl, rfl, statusByte_of_code 1 h⟩
  case h_3 h => exact ⟨rfl, rfl, statusByte_of_code 2 h⟩
  case h_4 h0 h1 h2 => exact ⟨rfl, rfl, statusByte_of_code 3 (code_toNat_eq_three h0 h1 h2)⟩

theorem decodeDivider_standsFor (b : Byte) : StandsFor (decodeDivider b) .srcMaskReg b.toNat := by
  unfold decodeDivider
  dsimp only
  split
  case h_1 h => exact ⟨rfl, rfl, srcMaskByte_of_code 0 h⟩
  case h_2 h => exact ⟨rfl, rfl, srcMaskByte_of_code 1 h⟩
  case h_3 h => exact ⟨rfl, rfl, srcMaskByte_of_code 2 h⟩
  case h_4 h0 h1 h2 => exact ⟨rfl, rfl, srcMaskByte_of_code 3 (code_toNat_eq_three h0 h1 h2)⟩

theorem decodeGain_encodeField {i : Instr} (hf : i.format = .gainReg) : decodeGain (encodeField i) = .ok i := by
  cases i with
  | gainIndoor x p => exact (gain_bytes x p).1.1
  | gainOutdoor x p => exact (gain_bytes x p).2.1
  | _ => cases hf

theorem statusByte_fields (hi code : BitVec 2) (lo : BitVec 4) :
    (hi ++ code ++ lo : Byte).extractLsb' 6 2 = hi ∧ (hi ++ code ++ lo : Byte).extractLsb' 4 2 = code ∧
    (hi ++ code ++ lo : Byte).extractLsb' 0 4 = lo :=
  ⟨threeFields_high hi code lo, threeFields_middle hi code lo, BitVec.extractLsb'_append_eq_right⟩

theorem srcMaskByte_fields (code : BitVec 2) (lo : BitVec 6) :
    (code ++ lo : Byte).extractLsb' 6 2 = code ∧ (code ++ lo : Byte).extractLsb' 0 6 = lo :=
  ⟨BitVec.extractLsb'_append_eq_left, BitVec.extractLsb'_append_eq_right⟩

theorem decodeStrikes_encodeField {i : Instr} (hf : i.format = .statusReg) : decodeStrikes (encodeField i) = i := by
  cases i with
  | minStrikes1 | minStrikes5 | minStrikes9 | minStrikes16 =>
    simp only [encodeField, decodeStrikes, statusByte_fields]
    rfl
  | _ => cases hf

theorem decodeDivider_encodeField {i : Instr} (hf : i.format = .srcMaskReg) : decodeDivider (encodeField i) = i := by
  cases i with
  | divider16 | divider32 | divider64 | divider128 =>
    simp only [encodeField, decodeDivider, srcMaskByte_fields]
    rfl
  | _ => cases hf

theorem encode_of_field {i : Instr} (hf : i.format = .gainReg ∨ i.format = .statusReg ∨ i.format = .srcMaskReg) :
    encode i = (encodeField i).toNat := by
  cases i with
  | gainIndoor | gainOutdoor | minStrikes1 | minStrikes5 | minStrikes9 | minStrikes16 | divider16 | divider32
  | divider64 | divider128 => rfl
  | _ => rcases hf with hf | hf | hf <;> cases hf

/-! ### Every port -/

/-- Settles O1: the decoder runs on each word. -/
theorem writtenWordsDecode : Obligations.WrittenWordsDecode :=
  ⟨rfl, rfl, rfl, rfl, rfl, rfl, rfl, rfl, rfl, rfl, rfl, rfl⟩

/-- Settles O2: on each port the decoder undoes the encoder. -/
theorem decodeOfEncodeIsTheInstruction : Obligations.DecodeOfEncodeIsTheInstruction := by
  intro i hw
  cases hf : i.format with
  | edge1 => cases i with
    | edge => rfl
    | _ => cases hf
  | cmd16 => rw [encode_of_cmd hf, decode_cmd, decodeCmd_encodeCmd hf hw]
  | src4 => exact decode_encode_src hf
  | regByte => cases i with
    | dist6 b => exact decode_dist b
    | _ => cases hf
  | regByte3 => cases i with
    | energy21 h m l => exact decode_energy h m l
    | _ => cases hf
  | gainReg => rw [encode_of_field (.inl hf), decode_gain, decodeGain_encodeField hf]
  | statusReg => rw [encode_of_field (.inr (.inl hf)), decode_status, decodeStrikes_encodeField hf]
  | srcMaskReg => rw [encode_of_field (.inr (.inr hf)), decode_srcMask, decodeDivider_encodeField hf]

/-- Three energy bytes decode to themselves. -/
theorem decode_energyWord (v : BitVec 24) :
    decode .regByte3 v.toNat = .ok (.energy21 (v.extractLsb' 16 8) (v.extractLsb' 8 8) (v.extractLsb' 0 8)) := by
  have join := threeFields_join (a := 8) (b := 8) (c := 8) v
  rw [← decode_energy, join]

/-- Settles O3: on each port the encoder undoes the decoder. -/
theorem encodeOfDecodeIsTheWord : Obligations.EncodeOfDecodeIsTheWord := by
  intro f w i h
  obtain ⟨b, rfl⟩ := exists_word (decode_fits h)
  change StandsFor i f b.toNat
  cases f with
  | edge1 =>
    rcases BitVec.eq_zero_or_eq_one b with rfl | rfl
    · cases h
    · cases h
      exact ⟨rfl, rfl, rfl⟩
  | cmd16 =>
    cases (decode_cmd b).symm.trans h
    exact decodeCmd_standsFor b
  | src4 =>
    cases (decode_src b).symm.trans h
    exact decodeSrc_standsFor b
  | regByte =>
    cases (decode_dist b).symm.trans h
    exact ⟨rfl, rfl, rfl⟩
  | regByte3 =>
    cases (decode_energyWord b).symm.trans h
    exact ⟨rfl, rfl, congrArg BitVec.toNat (threeFields_join (a := 8) (b := 8) (c := 8) b)⟩
  | gainReg => exact decodeGain_standsFor ((decode_gain b).symm.trans h)
  | statusReg =>
    cases (decode_status b).symm.trans h
    exact decodeStrikes_standsFor b
  | srcMaskReg =>
    cases (decode_srcMask b).symm.trans h
    exact decodeDivider_standsFor b

/-! ### The words that decode to nothing (30_encoding.md R82, 41_register_codecs.md R102) -/

/-- A gain byte is rejected exactly if its bits [5:1] are neither preset. -/
theorem decode_gain_error_iff (b : Byte) :
    (∃ r, decode .gainReg b.toNat = .error r) ↔ b.toNat / 2 % 32 ≠ 0b10010 ∧ b.toNat / 2 % 32 ≠ 0b01110 := by
  have preset : ∀ p : BitVec 5, b.extractLsb' 1 5 = p ↔ b.toNat / 2 % 32 = p.toNat := by
    intro p
    rw [← BitVec.toNat_inj, BitVec.extractLsb'_toNat, Nat.shiftRight_eq_div_pow]
  simp only [decode_gain, decodeGain, preset]
  split
  · next h => simp [h]
  · next hin =>
    split
    · next h => simp [h]
    · next hout => exact ⟨fun _ => ⟨hin, hout⟩, fun _ => ⟨_, rfl⟩⟩

theorem not_error_of_ok {f : Format} {w : Nat} {i : Instr} (h : decode f w = .ok i) : ¬∃ r, decode f w = .error r := by
  simp [h]

/-- Settles O4: the other ports decode every word. -/
theorem onlyStrobeZeroAndPresetlessGainAreRejected : Obligations.OnlyStrobeZeroAndPresetlessGainAreRejected := by
  intro f w hw
  obtain ⟨b, rfl⟩ := exists_word hw
  cases f with
  | edge1 =>
    rcases BitVec.eq_zero_or_eq_one b with rfl | rfl
    · exact ⟨fun _ => .inl ⟨rfl, rfl⟩, fun _ => ⟨.noEdge, rfl⟩⟩
    · exact iff_of_false (not_error_of_ok (i := .edge) rfl) (by simp)
  | gainReg =>
    exact (decode_gain_error_iff b).trans ⟨fun h => .inr ⟨rfl, h⟩, fun h => (h.resolve_left (by simp)).2⟩
  | cmd16 => exact iff_of_false (not_error_of_ok (decode_cmd b)) (by simp)
  | src4 => exact iff_of_false (not_error_of_ok (decode_src b)) (by simp)
  | regByte => exact iff_of_false (not_error_of_ok (decode_dist b)) (by simp)
  | regByte3 => exact iff_of_false (not_error_of_ok (decode_energyWord b)) (by simp)
  | statusReg => exact iff_of_false (not_error_of_ok (decode_status b)) (by simp)
  | srcMaskReg => exact iff_of_false (not_error_of_ok (decode_srcMask b)) (by simp)

/-! ### The refused command words (30_encoding.md R78) -/

theorem refuseCmd_idle {s : State} (hp : s.phase = .idle) (hj : s.drvJob = none) (i : Instr) :
    s.refuseCmd i = { s with out := s.out ++ [.rsp .refused .nothing] } := by
  rw [State.refuseCmd, if_neg (by simp [State.busy, hp, hj])]
  rfl

theorem refuseCmd_busy {s : State} (h : s.phase ≠ .idle ∨ s.drvJob.isSome = true) (i : Instr) :
    s.refuseCmd i = { s with waiting := s.waiting ++ [.cmd (encodeCmd i)] } := by
  rw [State.refuseCmd, if_pos (by simpa [State.busy] using h)]
  rfl

theorem encodeCmd_decodeCmd (w : CmdWord) : encodeCmd (decodeCmd w) = w := by
  obtain ⟨-, hf, he⟩ := decodeCmd_standsFor w
  exact BitVec.eq_of_toNat_eq ((encode_of_cmd hf).symm.trans he)

/-- The words of R78 (a) and (b) decode to the six refused rows, by `op` and then by `arg`. -/
theorem exec_refusedWord {w : CmdWord} (s : State)
    (h : w.toNat / 4096 = 0 ∨ 8 ≤ w.toNat / 4096 ∨ (w.toNat / 4096 ≤ 4 ∧ w.toNat % 4096 ≠ 0)) :
    exec (decodeCmd w) s = .next (s.refuseCmd (decodeCmd w)) := by
  have arg_ne : w.toNat % 4096 ≠ 0 → w.extractLsb' 0 12 ≠ 0 := fun hne hzero => by
    rw [← cmdArg_toNat, hzero] at hne
    exact hne rfl
  have hop := cmdOp_toNat w
  unfold decodeCmd
  dsimp only
  split
  case h_1 | h_9 => rfl
  case h_2 | h_3 | h_4 | h_5 =>
    rw [if_neg (arg_ne (by omega))]
    rfl
  all_goals omega

/-- Settles O5: each refused row answers REFUSED where it does not wait as its word. -/
theorem reservedCommandWordsAreRefused : Obligations.ReservedCommandWordsAreRefused := by
  refine ⟨fun w s h => ⟨fun hp hj => ?_, fun hb => ?_⟩, fun arg arg15 s hp hj => ?_⟩
  · rw [exec_refusedWord s h, refuseCmd_idle hp hj]
  · rw [exec_refusedWord s h, refuseCmd_busy hb, encodeCmd_decodeCmd]
  · have refused := fun i => congrArg (Host.Outcome.next (φ := Fault) (ρ := Refusal)) (refuseCmd_idle hp hj i)
    exact ⟨refused _, refused _, refused _, refused _, refused _, refused _⟩

end Sys2Proof.Proofs
end

section
/-! PROOF. The operands the block assembles and the record it makes of an Event, in arithmetic (30_encoding.md R75, R76,
R80). -/

namespace Sys2Proof.Proofs

open Sys2Proof.Machine Sys2Proof.Laws

/-! ### The record of an Event -/

theorem kindOfKind4_kind4 (k : Option Kind) : kindOfKind4 (kind4 k) = some k := by
  rcases k with _ | _ | _ | _ <;> rfl

/-- The record's fields beside each other, each weighted by its position. -/
theorem evtrec_eq (e : Event) :
    evtrec e = e.ts * 2 ^ 37 + (e.energy.getD 0).toNat * 2 ^ 16 + e.energy.isSome.toNat * 2 ^ 15 +
      (e.distanceKm.getD 0).toNat * 2 ^ 9 + e.distanceKm.isSome.toNat * 2 ^ 8 + (kind4 (some e.kind)).toNat * 2 ^ 4 +
      e.raw.toNat := by
  simp only [evtrec, evtrecLow, append_toNat, BitVec.toNat_ofBool]
  omega

/-- Each field of the record stands at its bits: it has no more bits than lie up to the next field. -/
theorem evtrec_fields (e : Event) :
    evtrec e % 2 ^ 4 = e.raw.toNat ∧
    evtrec e / 2 ^ 4 % 2 ^ 4 = (kind4 (some e.kind)).toNat ∧
    evtrec e / 2 ^ 8 % 2 = e.distanceKm.isSome.toNat ∧
    evtrec e / 2 ^ 9 % 2 ^ 6 = (e.distanceKm.getD 0).toNat ∧
    evtrec e / 2 ^ 15 % 2 = e.energy.isSome.toNat ∧
    evtrec e / 2 ^ 16 % 2 ^ 21 = (e.energy.getD 0).toNat ∧
    evtrec e / 2 ^ 37 = e.ts := by
  have hraw := e.raw.isLt
  have hkind := (kind4 (some e.kind)).isLt
  have hdist := (e.distanceKm.getD 0).isLt
  have henergy := (e.energy.getD 0).isLt
  have hd := e.distanceKm.isSome.toNat_lt
  have he := e.energy.isSome.toNat_lt
  rw [evtrec_eq]
  omega

/-- A field of a record's low 37 bits, in arithmetic. -/
theorem record_field (r : Nat) {start len : Nat} (h : start + len ≤ 37) :
    ((BitVec.ofNat 37 r).extractLsb' start len).toNat = r / 2 ^ start % 2 ^ len := by
  have split37 : 2 ^ 37 = 2 ^ start * 2 ^ (37 - start) := by rw [← Nat.pow_add]; congr 1; omega
  rw [BitVec.extractLsb'_toNat, BitVec.toNat_ofNat, Nat.shiftRight_eq_div_pow, split37, Nat.mod_mul_right_div_self,
    Nat.mod_mod_of_dvd _ (Nat.pow_dvd_pow 2 (by omega))]

/-- A flag of a record's low 37 bits, in arithmetic. -/
theorem record_flag {r i : Nat} {b : Bool} (hi : i < 37) (h : r / 2 ^ i % 2 = b.toNat) :
    (BitVec.ofNat 37 r).getLsbD i = b := by
  rw [BitVec.getLsbD_ofNat, Nat.testBit_eq_decide_div_mod_eq, h]
  cases b <;> simp [hi]

/-- A value that is kept beside whether it is present is the optional value. -/
theorem present_getD {n : Nat} (o : Option (BitVec n)) : (if o.isSome = true then some (o.getD 0) else none) = o := by
  cases o <;> rfl

/-- A number with the fields of a record decodes to the record's Event. -/
theorem evtrecDecode_of_fields {r : Nat} {e : Event} (hraw : r / 2 ^ 0 % 2 ^ 4 = e.raw.toNat)
    (hkind : r / 2 ^ 4 % 2 ^ 4 = (kind4 (some e.kind)).toNat) (hd : r / 2 ^ 8 % 2 = e.distanceKm.isSome.toNat)
    (hdist : r / 2 ^ 9 % 2 ^ 6 = (e.distanceKm.getD 0).toNat) (he : r / 2 ^ 15 % 2 = e.energy.isSome.toNat)
    (henergy : r / 2 ^ 16 % 2 ^ 21 = (e.energy.getD 0).toNat) (hts : r / 2 ^ 37 = e.ts) : evtrecDecode r = some e := by
  have field : ∀ {start len : Nat} {x : BitVec len}, start + len ≤ 37 → r / 2 ^ start % 2 ^ len = x.toNat →
      (BitVec.ofNat 37 r).extractLsb' start len = x :=
    fun h hx => BitVec.eq_of_toNat_eq ((record_field _ h).trans hx)
  simp only [evtrecDecode, field (by decide) hkind, kindOfKind4_kind4, record_flag (by decide) hd,
    record_flag (by decide) he, field (by decide) hdist, field (by decide) henergy, field (by decide) hraw, hts,
    present_getD]

/-- Settles O6: the record decodes because each field stands at its bits. -/
theorem evtrecHoldsEveryFieldAndDecodes : Obligations.EvtrecHoldsEveryFieldAndDecodes := by
  intro e
  obtain ⟨hraw, hkind, hd, hdist, he, henergy, hts⟩ := evtrec_fields e
  have hraw' : evtrec e / 2 ^ 0 % 2 ^ 4 = e.raw.toNat := by rwa [Nat.pow_zero, Nat.div_one]
  exact ⟨hraw, hkind, hd, hdist, he, henergy, hts, evtrecDecode_of_fields hraw' hkind hd hdist he henergy hts⟩

/-! ### The operands -/

/-- Settles O7: the assembled operands are the arithmetic of the bytes, and the energy fits its 21 bits. -/
theorem operandsAreAssembledUnsigned : Obligations.OperandsAreAssembledUnsigned := by
  intro shift b l m h
  refine ⟨?_, ?_, ?_⟩
  · rw [sourceCode_eq, BitVec.toNat_ofNat]
  · rw [maskDistance_eq, BitVec.toNat_ofNat]
  · have hl := l.isLt
    have hm := m.isLt
    rw [assembleEnergy_eq, BitVec.toNat_ofNat]
    exact Nat.mod_eq_of_lt (by omega)

end Sys2Proof.Proofs
end

section
/-! PROOF. The register codecs (41_register_codecs.md): the register settings, each one readModifyWrite of its field
(20_memory.md R44), the value codecs of the driver, and the rows of the source code. -/

namespace Sys2Proof.Proofs

open Sys2Proof.Machine Sys2Proof.Laws

/-! ### The register settings -/

/-- Only the byte that the read obtains matters to a readModifyWrite: an answer that gives none stands for the one the
register holds. -/
theorem drvStep_settingAnswer {u : State} {c : DrvCall} {f : RegField} {v : Byte} {g g' : List Byte}
    {rest : List BusAnswer} (hb : u.busIn = .ok g :: .ok g' :: rest) :
    u.drvStep (settingJob c f v) =
      State.drvStep { u with busIn := .ok [g.getD 0 (u.sensorRegs.read f.reg.toNat)] :: .ok g' :: rest }
        (settingJob c f v) := by
  rw [settingJob, drvStep_rmw u c f v [] [] g g' rest hb, drvStep_rmw _ c f v [] [] [_] g' rest rfl]
  rfl

/-- A call whose plan is one readModifyWrite makes its attempt at once when the main context is free. -/
theorem drvCall_setting {s : State} {fmt : Format} {byte : Byte} {f : RegField} {v : Byte} (hp : s.phase = .idle)
    (hj : s.drvJob = none) (hplan : drvPlan s.par (.field fmt byte) = some [.rmw f v]) :
    s.drvCall (.field fmt byte) = s.drvStep (settingJob (.field fmt byte) f v) := by
  rw [State.drvCall, if_neg (by simp [State.busy, hp, hj])]
  simp [State.drvStart, hplan, settingJob]

/-- The register byte `b` of port `fmt` is a setting: it stores `bits` in field `f` by one readModifyWrite. -/
def StoresField (p : Config.Params) (fmt : Format) (b : Byte) (f : RegField) (bits : Byte) : Prop :=
  ∃ v, drvPlan p (.field fmt b) = some [.rmw f v] ∧ (v <<< f.shift) &&& f.mask = bits

/-- A setting whose two bus attempts succeed writes its field, and nothing else. -/
theorem StoresField.written {s : State} {fmt : Format} {b bits : Byte} {f : RegField}
    (h : StoresField s.par fmt b f bits) (hp : s.phase = .idle) (hj : s.drvJob = none) :
    settingWritten s (.next (s.drvCall (.field fmt b))) f.reg f.mask bits := by
  obtain ⟨v, hplan, hbits⟩ := h
  intro g g' rest hb hwf
  obtain ⟨m, ⟨hm, hother⟩, hread, hdone⟩ := drvStep_settingDone
    (u := { s with busIn := .ok [g.getD 0 (s.sensorRegs.read f.reg.toNat)] :: .ok g' :: rest }) ⟨fmt, b, rfl⟩ hbits rfl hwf
  refine ⟨m, ?_, hm, hread, hother⟩
  rw [drvCall_setting hp hj hplan, drvStep_settingAnswer hb, hdone]
  simp [attemptTraffic, hj]

/-- A byte of the gain register that holds a preset stores its bits [5:1] (R102). -/
theorem gain_storesField (p : Config.Params) {b bits : Byte} {i : Instr}
    (h : decodeGain b = .ok i ∧ b &&& 0x3E = bits) : StoresField p .gainReg b (gainField p) bits :=
  ⟨_, by simp only [drvPlan, h.1], (field_shifted_back p b).1.trans h.2⟩

/-- A byte of the status register stores its bits [5:4] (R103). -/
theorem strikes_storesField (p : Config.Params) {b bits : Byte} (h : b &&& 0x30 = bits) :
    StoresField p .statusReg b (strikesField p) bits :=
  ⟨_, rfl, (field_shifted_back p b).2.1.trans h⟩

/-- A byte of the source-mask register stores its bits [7:6] (R105). -/
theorem divider_storesField (p : Config.Params) {b bits : Byte} (h : b &&& 0xC0 = bits) :
    StoresField p .srcMaskReg b (dividerField p) bits :=
  ⟨_, rfl, (field_shifted_back p b).2.2.trans h⟩

/-- Settles O21: each row is a driver call that stores its field by one readModifyWrite. -/
theorem registerSettingsKeepTheOtherBits : Obligations.RegisterSettingsKeepTheOtherBits := by
  intro s hp hj
  refine ⟨fun x p => ?_, fun x p => ?_, fun hi lo => ?_, fun hi lo => ?_, fun hi lo => ?_, fun hi lo => ?_,
    fun lo => ?_, fun lo => ?_, fun lo => ?_, fun lo => ?_⟩
  · exact (gain_storesField s.par (gain_bytes x p).1).written hp hj
  · exact (gain_storesField s.par (gain_bytes x p).2).written hp hj
  · exact (strikes_storesField s.par (strikes_bytes hi 0 lo)).written hp hj
  · exact (strikes_storesField s.par (strikes_bytes hi 1 lo)).written hp hj
  · exact (strikes_storesField s.par (strikes_bytes hi 2 lo)).written hp hj
  · exact (strikes_storesField s.par (strikes_bytes hi 3 lo)).written hp hj
  · exact (divider_storesField s.par (divider_bytes 0 lo)).written hp hj
  · exact (divider_storesField s.par (divider_bytes 1 lo)).written hp hj
  · exact (divider_storesField s.par (divider_bytes 2 lo)).written hp hj
  · exact (divider_storesField s.par (divider_bytes 3 lo)).written hp hj

/-! ### The value codecs -/

theorem strikesEncode_eq_some {n : Nat} {k : Byte} :
    strikesEncode n = some k ↔ (n = 1 ∧ k = 0) ∨ (n = 5 ∧ k = 1) ∨ (n = 9 ∧ k = 2) ∨ (n = 16 ∧ k = 3) := by
  unfold strikesEncode
  split_ifs with h1 h5 h9 h16
  · simp [h1, eq_comm (b := k)]
  · simp [h5, eq_comm (b := k)]
  · simp [h9, eq_comm (b := k)]
  · simp [h16, eq_comm (b := k)]
  · simp [h1, h5, h9, h16]

theorem strikesDecode_eq_some {k n : Nat} :
    strikesDecode k = some n ↔ (n = 1 ∧ k = 0) ∨ (n = 5 ∧ k = 1) ∨ (n = 9 ∧ k = 2) ∨ (n = 16 ∧ k = 3) := by
  unfold strikesDecode
  split
  case h_5 h0 h1 h2 h3 =>
    have noCode : ¬k = 0 ∧ ¬k = 1 ∧ ¬k = 2 ∧ ¬k = 3 := ⟨h0, h1, h2, h3⟩
    simp [noCode]
  all_goals simp [eq_comm]

theorem dividerEncode_eq_some {n : Nat} {k : Byte} :
    dividerEncode n = some k ↔ (n = 16 ∧ k = 0) ∨ (n = 32 ∧ k = 1) ∨ (n = 64 ∧ k = 2) ∨ (n = 128 ∧ k = 3) := by
  unfold dividerEncode
  split_ifs with h16 h32 h64 h128
  · simp [h16, eq_comm (b := k)]
  · simp [h32, eq_comm (b := k)]
  · simp [h64, eq_comm (b := k)]
  · simp [h128, eq_comm (b := k)]
  · simp [h16, h32, h64, h128]

theorem dividerDecode_eq {k : BitVec 2} {n : Nat} :
    dividerDecode k = n ↔ (n = 16 ∧ k = 0) ∨ (n = 32 ∧ k = 1) ∨ (n = 64 ∧ k = 2) ∨ (n = 128 ∧ k = 3) := by
  have codes : ∀ k : BitVec 2, k = 0 ∨ k = 1 ∨ k = 2 ∨ k = 3 := by decide
  rcases codes k with rfl | rfl | rfl | rfl <;> simp [dividerDecode, eq_comm]

/-- The capacitance's floor in steps of 8 pF, clamped, fits the byte (R106; the floor is D31's). -/
theorem tuningSteps_toNat (pf : Int) : (tuningSteps pf).toNat = min 15 (pf.toNat / 8) := by
  have hfloor : (pf / 8).toNat = pf.toNat / 8 := by omega
  rw [tuningSteps, hfloor, BitVec.toNat_ofNat]
  exact Nat.mod_eq_of_lt (by omega)

theorem tuningPf_eq (steps : Byte) : tuningPf steps = 8 * steps.toNat := Nat.mul_comm _ _

/-- A capacitance below the clamp comes back as its whole steps. -/
theorem tuningPf_tuningSteps {n r : Nat} (hn : n ≤ 15) (hr : r < 8) :
    tuningPf (tuningSteps ((8 * n + r : Nat) : Int)) = 8 * n := by
  rw [tuningPf_eq, tuningSteps_toNat, Int.toNat_natCast]
  omega

/-- Settles O9: each codec is told by its values, and the tuning codec by its arithmetic. -/
theorem driverCodecsMapTheLegalValues : Obligations.DriverCodecsMapTheLegalValues :=
  ⟨fun _ _ => strikesEncode_eq_some, fun _ _ => strikesDecode_eq_some, fun _ _ => dividerEncode_eq_some,
    fun _ _ => dividerDecode_eq, ⟨rfl, rfl, rfl, rfl⟩, tuningSteps_toNat, tuningPf_eq,
    fun _ hn _ hr => tuningPf_tuningSteps hn hr⟩

/-! ### The source code -/

/-- The three bits that count in a source code, in arithmetic. -/
theorem code4_bits (c : Code4) :
    (c.getLsbD 3 = true ↔ 8 ≤ c.toNat) ∧ (c.getLsbD 2 = true ↔ 4 ≤ c.toNat % 8) ∧
      (c.getLsbD 0 = true ↔ c.toNat % 2 = 1) := by
  have hc := c.isLt
  simp only [BitVec.getLsbD, Nat.testBit_eq_decide_div_mod_eq, decide_eq_true_eq]
  omega

/-- Settles O8: each bit that counts is tested only where the bits before it are 0. -/
theorem classificationIsByFixedPriority : Obligations.ClassificationIsByFixedPriority := by
  intro c
  obtain ⟨lightning, disturber, noise⟩ := code4_bits c
  rw [classify]
  by_cases h8 : 8 ≤ c.toNat
  · rw [if_pos (lightning.mpr h8), if_pos h8]
  · have hd : c.getLsbD 2 = true ↔ 4 ≤ c.toNat := by rw [disturber, Nat.mod_eq_of_lt (by omega)]
    rw [if_neg (mt lightning.mp h8), if_neg h8]
    exact if_congr hd rfl (if_congr noise rfl rfl)

/-- Settles O20: each row of the sensor's answers tests the phase that takes it. -/
theorem straySensorWordsChangeNothing : Obligations.StraySensorWordsChangeNothing := by
  intro s
  refine ⟨fun h => ⟨fun x => ?_, fun x => ?_, fun x => ?_, fun x => ?_⟩, fun h b => ?_, fun h m l e => ?_⟩
  all_goals exact congrArg Host.Outcome.next (if_neg h)

end Sys2Proof.Proofs
end

section
/-! PROOF. A driver operation whose attempts the sensor answers (20_memory.md R42 to R44): its bus-level steps run one a
step, and touch nothing but what stands on the bus, so one account of a run serves every call of the driver. -/

namespace Sys2Proof.Proofs

open Sys2Proof.Machine Sys2Proof.Laws

/-! ### The bus side of the state -/

/-- The four fields that a bus-level step which is answered with success touches: the answers to come, the failed
attempts, what the ports have put out, and the sensor's registers. -/
structure BusSide where
  answers : List BusAnswer
  tries : Nat
  traffic : List Output
  regs : Memory

/-- The bus side of a state. -/
def busSide (s : State) : BusSide := ⟨s.busIn, s.busTry, s.out, s.sensorRegs⟩

/-- A state with its bus side replaced. -/
def onBus (s : State) (b : BusSide) : State :=
  { s with busIn := b.answers, busTry := b.tries, out := b.traffic, sensorRegs := b.regs }

theorem busSide_of_answers {s : State} {as : List BusAnswer} (h : s.busIn = as) :
    busSide s = ⟨as, s.busTry, s.out, s.sensorRegs⟩ := by rw [busSide, h]

/-- The registers after a one-byte read of `reg` that reaches the sensor (20_memory.md R49). -/
def codeCleared (p : Config.Params) (reg : RegAddr) (m : Memory) : Memory :=
  if (p.sensor.regInt - reg).toNat < 1 then
    m.write p.sensor.regInt.toNat (m.read p.sensor.regInt.toNat &&& ~~~((0x0F : Byte) <<< p.sensor.intShift))
  else m

/-- What a bus-level step does to the bus side when each of its attempts succeeds, and the bytes it obtains; the byte a
read obtains is the answer's, else the register's. -/
inductive Served (p : Config.Params) : BusSide → DrvOp → BusSide → List Byte → Prop where
  | read (reg : RegAddr) (g : List Byte) (rest : List BusAnswer) (k : Nat) (out : List Output) (m : Memory) :
    Served p ⟨.ok g :: rest, k, out, m⟩ (.read reg)
      ⟨rest, 0, out ++ [.busRead p.bus.addr reg 1], codeCleared p reg m⟩ [g.getD 0 (m.read reg.toNat)]
  | write (reg : RegAddr) (bytes g : List Byte) (rest : List BusAnswer) (k : Nat) (out : List Output) (m : Memory) :
    Served p ⟨.ok g :: rest, k, out, m⟩ (.write reg bytes)
      ⟨rest, 0, out ++ [.busWrite p.bus.addr reg bytes], m.writeBytes reg bytes⟩ []
  | rmw (f : RegField) (v after : Byte) (g g' : List Byte) (rest : List BusAnswer) (k : Nat) (out : List Output)
      (m : Memory) (h : f.set (g.getD 0 (m.read f.reg.toNat)) v = after) :
    Served p ⟨.ok g :: .ok g' :: rest, k, out, m⟩ (.rmw f v)
      ⟨rest, 0, out ++ [.busRead p.bus.addr f.reg 1, .busWrite p.bus.addr f.reg [after]],
        (codeCleared p f.reg m).write f.reg.toNat after⟩ [after]

/-- Bus-level steps one after the other, each answered with success. -/
inductive ServedAll (p : Config.Params) : BusSide → List DrvOp → BusSide → List Byte → Prop where
  | nil (b : BusSide) : ServedAll p b [] b []
  | cons {b b' b'' : BusSide} {op : DrvOp} {ops : List DrvOp} {bs bs' : List Byte} :
    Served p b op b' bs → ServedAll p b' ops b'' bs' → ServedAll p b (op :: ops) b'' (bs ++ bs')

/-! ### The operation in progress -/

/-- The driver operation `c` with the bus-level steps `todo` left, having obtained `got`; with none left it is over. -/
def resumed (s : State) (c : DrvCall) (todo : List DrvOp) (got : List Byte) : State :=
  s.drvAdvance { call := c, todo := todo, got := got } todo []

theorem resumed_nil (s : State) (c : DrvCall) (got : List Byte) :
    resumed s c [] got = s.drvFinish { call := c, todo := [], got := got } := by
  simp [resumed, State.drvAdvance]

theorem resumed_cons (s : State) (c : DrvCall) (op : DrvOp) (todo : List DrvOp) (got : List Byte) :
    resumed s c (op :: todo) got = { s with drvJob := some { call := c, todo := op :: todo, got := got } } := by
  simp [resumed, State.drvAdvance]

theorem resumed_of_ne_nil (s : State) (c : DrvCall) {todo : List DrvOp} (h : todo ≠ []) (got : List Byte) :
    resumed s c todo got = { s with drvJob := some { call := c, todo := todo, got := got } } := by
  obtain ⟨op, todo, rfl⟩ := List.exists_cons_of_ne_nil h
  exact resumed_cons s c op todo got

theorem drvAdvance_eq_resumed (s : State) (j : DrvJob) (todo : List DrvOp) (new : List Byte) :
    s.drvAdvance j todo new = resumed s j.call todo (j.got ++ new) := by
  cases todo <;> simp [resumed, State.drvAdvance]

/-- The operation that was in progress before does not matter. -/
theorem resumed_drvJob (s : State) (job : Option DrvJob) (c : DrvCall) (todo : List DrvOp) (got : List Byte) :
    resumed { s with drvJob := job } c todo got = resumed s c todo got := by
  cases todo <;> simp [resumed_nil, resumed_cons, State.drvFinish]

/-- One step of a driver operation whose next bus-level step is answered. -/
theorem Served.drvStep {s : State} {b b' : BusSide} {op : DrvOp} {bs : List Byte} (h : Served s.par b op b' bs)
    (c : DrvCall) (todo : List DrvOp) (got : List Byte) :
    (onBus s b).drvStep { call := c, todo := op :: todo, got := got } = resumed (onBus s b') c todo (got ++ bs) := by
  cases h with
  | read reg g rest k out m =>
    rw [drvStep_read _ c reg todo got g rest rfl, drvAdvance_eq_resumed]
    rfl
  | write reg bytes g rest k out m =>
    have hdone : (onBus s ⟨.ok g :: rest, k, out, m⟩).memWrite reg bytes = (.done (), onBus s
        ⟨rest, 0, out ++ [.busWrite s.par.bus.addr reg bytes], m.writeBytes reg bytes⟩) := by
      unfold State.memWrite
      rw [busWriteOnce_ok _ reg bytes g rest rfl]
      rfl
    simp only [State.drvStep]
    rw [hdone]
    exact drvAdvance_eq_resumed _ _ _ _
  | rmw f v after g g' rest k out m hafter =>
    cases hafter
    rw [drvStep_rmw _ c f v todo got g g' rest rfl, drvAdvance_eq_resumed]
    rfl

/-- A main move goes on with the operation in progress. -/
theorem step_resumed {s : State} {ms : List Move} (hs : s.sched = .main :: ms) (c : DrvCall) (op : DrvOp)
    (todo : List DrvOp) (got : List Byte) :
    let j : DrvJob := { call := c, todo := op :: todo, got := got }
    step (resumed s c (op :: todo) got) = .next (State.drvStep { s.wake with sched := ms, drvJob := some j } j) := by
  intro j
  rw [resumed_cons]
  exact (step_main { s with drvJob := some j } ms hs).trans
    (microStep_job (u := { s.wake with sched := ms, drvJob := some j }) rfl)

/-- A main context that sleeps no longer runs the bus-level steps that are answered, one a move. -/
theorem ServedAll.steps_awake {s : State} {b b' : BusSide} {ops : List DrvOp} {bs : List Byte}
    (h : ServedAll s.par b ops b' bs) {ms : List Move} (hw : s.wakeAt ≤ s.now)
    (hs : s.sched = List.replicate ops.length .main ++ ms) (c : DrvCall) (todo : List DrvOp) (got : List Byte) :
    (resumed (onBus s b) c (ops ++ todo) got).steps ops.length =
      .next (resumed (onBus { s with sched := ms } b') c todo (got ++ bs)) := by
  generalize hp : s.par = p at h
  induction h generalizing s got with
  | nil b =>
    subst hp
    obtain rfl : s.sched = ms := hs
    rw [List.append_nil]
    rfl
  | @cons b b₁ b' op ops bs bs' hop _ ih =>
    subst hp
    have hawake : s.wake = s := by rw [State.wake, Nat.max_eq_left hw]
    let s' : State := { s with sched := List.replicate ops.length .main ++ ms }
    have hstep : step (resumed (onBus s b) c (op :: (ops ++ todo)) got) =
        .next (resumed (onBus s' b₁) c (ops ++ todo) (got ++ bs)) := by
      refine (step_resumed (s := onBus s b) hs c op (ops ++ todo) got).trans (congrArg _ ?_)
      rw [show (onBus s b).wake = onBus s.wake b from rfl, hawake]
      exact (Served.drvStep (s := { s' with drvJob := some _ }) hop c (ops ++ todo) got).trans
        (resumed_drvJob (onBus s' b₁) _ _ _ _)
    rw [List.length_cons, List.cons_append, steps_succ _ _ _ hstep, ← List.append_assoc]
    exact ih (s := s') hw rfl _ rfl

/-- The main context runs the bus-level steps that are answered, one a move, once the sleep under way is over. -/
theorem ServedAll.steps {s : State} {b b' : BusSide} {ops : List DrvOp} {bs : List Byte}
    (h : ServedAll s.par b ops b' bs) (hne : ops ≠ []) {ms : List Move}
    (hs : s.sched = List.replicate ops.length .main ++ ms) (c : DrvCall) (todo : List DrvOp) (got : List Byte) :
    (resumed (onBus s b) c (ops ++ todo) got).steps ops.length =
      .next (resumed (onBus { s.wake with sched := ms } b') c todo (got ++ bs)) := by
  obtain ⟨op, ops, rfl⟩ := List.exists_cons_of_ne_nil hne
  have hwake : s.wake.wake = s.wake := by simp [State.wake]
  have hfirst : step (resumed (onBus s b) c (op :: (ops ++ todo)) got) =
      step (resumed (onBus s.wake b) c (op :: (ops ++ todo)) got) := by
    rw [step_resumed (s := onBus s b) hs, step_resumed (s := onBus s.wake b) hs,
      show (onBus s.wake b).wake = onBus s.wake.wake b from rfl, hwake]
    rfl
  have hrun := ServedAll.steps_awake (s := s.wake) h (ms := ms) (by simp [State.wake]) hs c todo got
  rw [← hrun]
  simp only [State.steps, List.length_cons, List.cons_append, Host.Core.run] at hfirst ⊢
  rw [show Sys2Proof.core.step = step from rfl, hfirst]

/-! ### The call -/

/-- The next move is the call `c`, the main context is free, and the call is taken with the bus-level steps `ops`. -/
structure Calls (s : State) (c : DrvCall) (ops : List DrvOp) (ms : List Move) : Prop where
  sched : s.sched = .driver c :: ms
  idle : s.phase = .idle
  free : s.drvJob = none
  first : s.waiting = []
  starts : ∀ u : State, u.startCall c = .next (u.drvCall c)
  ready : ∀ cfg src, c = .configure cfg src → s.driver ≠ .uninitialized
  plan : drvPlan s.par c = some ops

theorem step_call {s : State} {c : DrvCall} {ms : List Move} (hs : s.sched = .driver c :: ms) (hp : s.phase = .idle)
    (hj : s.drvJob = none) (hw : s.waiting = []) (hstart : ∀ u : State, u.startCall c = .next (u.drvCall c)) :
    step s = .next (({ s with sched := ms } : State).drvStart c) := by
  rw [step_driver s ms c hs hw, hstart, State.drvCall, if_neg (by simp [State.busy, hp, hj])]

/-- The call makes its first bus-level step at once. -/
theorem Calls.step {s : State} {c : DrvCall} {ops : List DrvOp} {ms : List Move} (h : Calls s c ops ms) :
    step s = .next (State.drvStep { s with sched := ms } { call := c, todo := ops, got := [] }) := by
  have hplan : drvPlan ({ s with sched := ms } : State).par c = some ops := h.plan
  rw [step_call h.sched h.idle h.free h.first h.starts]
  unfold State.drvStart
  split
  · next hu => exact absurd hu (h.ready _ _ rfl)
  · rw [hplan]

/-- A call whose bus-level steps are answered runs them, one a step; it waits only for the sleep under way. -/
theorem Calls.steps {s : State} {c : DrvCall} {op : DrvOp} {ops todo : List DrvOp} {ms : List Move} {b : BusSide}
    {bs : List Byte} (h : Calls s c (op :: ops ++ todo) (List.replicate ops.length .main ++ ms))
    (hserved : ServedAll s.par (busSide s) (op :: ops) b bs) :
    ∃ n, s.steps (ops.length + 1) = .next (resumed (onBus { s with sched := ms, now := n } b) c todo bs) ∧
      (s.wakeAt ≤ s.now → n = s.now) := by
  cases hserved with
  | @cons _ b₁ _ _ _ bs bs' hop hops =>
    have hstep := h.step.trans (congrArg Host.Outcome.next
      (hop.drvStep (s := { s with sched := List.replicate ops.length .main ++ ms }) c (ops ++ todo) []))
    rw [List.nil_append] at hstep
    rw [steps_succ _ _ _ hstep]
    cases ops with
    | nil =>
      cases hops
      exact ⟨s.now, by rw [List.append_nil]; rfl, fun _ => rfl⟩
    | cons op' ops =>
      have hrest := hops.steps (s := { s with sched := List.replicate (ops.length + 1) .main ++ ms }) (by simp) rfl c todo bs
      exact ⟨max s.now s.wakeAt, hrest, Nat.max_eq_left⟩

/-- A call whose every bus-level step is answered ends, and its result goes to its caller. -/
theorem Calls.steps_finish {s : State} {c : DrvCall} {op : DrvOp} {ops : List DrvOp} {ms : List Move} {b : BusSide}
    {bs : List Byte} (h : Calls s c (op :: ops) (List.replicate ops.length .main ++ ms))
    (hserved : ServedAll s.par (busSide s) (op :: ops) b bs) :
    ∃ n, s.steps (ops.length + 1) = .next ((onBus { s with sched := ms, now := n } b).drvFinish
        { call := c, todo := [], got := bs }) ∧ (s.wakeAt ≤ s.now → n = s.now) := by
  obtain ⟨n, hsteps, hn⟩ := Calls.steps (todo := []) (by rwa [List.append_nil]) hserved
  exact ⟨n, hsteps.trans (congrArg _ (resumed_nil _ _ _)), hn⟩

end Sys2Proof.Proofs
end

section
/-! PROOF. The sensor's answers and the driver's calls that are told by their traffic alone (42_sensor_accessors.md R121,
R122, R128, R131): the distance and energy bytes, settings out of range, and the statistics pulse. -/

namespace Sys2Proof.Proofs

open Sys2Proof.Machine Sys2Proof.Laws

/-! ### Distance and energy (42_sensor_accessors.md R121, R122) -/

/-- Settles O19: the two rows are the byte codecs of R121 and R122, and what the phase's read makes of their value. -/
theorem distanceAndEnergyMakeTheLightningEvent : Obligations.DistanceAndEnergyMakeTheLightningEvent := by
  intro s
  refine ⟨fun hp b => congrArg Host.Outcome.next ?_, fun hp h m l => congrArg Host.Outcome.next ?_⟩
  · rw [if_pos hp, maskDistance_eq]
  · rw [if_pos hp, assembleEnergy_eq]
    split
    · next host => exact returnEvent_toHost _ host
    · next drain => exact returnEvent_toDrain _ drain

/-! ### Settings out of range (42_sensor_accessors.md R128, 60_exceptions.md R192) -/

theorem strikesEncode_eq_none {n : Nat} (h1 : n ≠ 1) (h5 : n ≠ 5) (h9 : n ≠ 9) (h16 : n ≠ 16) :
    strikesEncode n = none := by
  simp [strikesEncode, h1, h5, h9, h16]

theorem dividerEncode_eq_none {n : Nat} (h16 : n ≠ 16) (h32 : n ≠ 32) (h64 : n ≠ 64) (h128 : n ≠ 128) :
    dividerEncode n = none := by
  simp [dividerEncode, h16, h32, h64, h128]

/-- A call without a plan is a ValidationError. -/
theorem step_rejected {s : State} {c : DrvCall} {ms : List Move} (hs : s.sched = .driver c :: ms) (hp : s.phase = .idle)
    (hj : s.drvJob = none) (hw : s.waiting = []) (hstart : ∀ u : State, u.startCall c = .next (u.drvCall c))
    (hc : ∀ cfg src, c ≠ .configure cfg src) (hplan : drvPlan s.par c = none) :
    step s = .next { s with sched := ms, out := s.out ++ [.driver .validationError] } := by
  have hplan' : drvPlan ({ s with sched := ms } : State).par c = none := hplan
  rw [step_call hs hp hj hw hstart]
  unfold State.drvStart
  split
  · next cfg src _ => exact absurd rfl (hc cfg src)
  · rw [hplan']
    rfl

/-- Settles O26: each of the five checks leaves the call without a plan. -/
theorem outOfRangeSettingsTouchNoBus : Obligations.OutOfRangeSettingsTouchNoBus := by
  intro s ms c hs hp hj hw hc
  have rejected := step_rejected hs hp hj hw
  rcases hc with ⟨v, hv, rfl⟩ | ⟨v, hv, rfl⟩ | ⟨v, hv, rfl⟩ | ⟨n, h1, h5, h9, h16, rfl⟩ | ⟨n, h16, h32, h64, h128, rfl⟩
  · exact rejected (fun _ => rfl) nofun (if_neg (by simp [hv]))
  · exact rejected (fun _ => rfl) nofun (if_neg (by simp [hv]))
  · exact rejected (fun _ => rfl) nofun (if_neg (by simp [hv]))
  · exact rejected (fun _ => rfl) nofun (by rw [drvPlan, strikesEncode_eq_none h1 h5 h9 h16, Option.map_none])
  · exact rejected (fun _ => rfl) nofun (by rw [drvPlan, dividerEncode_eq_none h16 h32 h64 h128, Option.map_none])

/-! ### Runs of bus-level steps of one kind -/

/-- A readModifyWrite to come: its field, the value, and the byte its read will give. -/
abbrev Exchange := (RegField × Byte) × Byte

/-- Its bus-level step. -/
def Exchange.op (x : Exchange) : DrvOp := .rmw x.1.1 x.1.2

/-- The answers it takes. -/
def Exchange.answers (x : Exchange) : List BusAnswer := [.ok [x.2], .ok []]

/-- What it puts on the bus. -/
def Exchange.traffic (addr : BusAddr) (x : Exchange) : List Output :=
  [.busRead addr x.1.1.reg 1, .busWrite addr x.1.1.reg [x.1.1.set x.2 x.1.2]]

/-- Readings and writings of fields, one after the other. -/
theorem servedAll_rmws (p : Config.Params) (xs : List Exchange) (rest : List BusAnswer) (k : Nat) (out : List Output)
    (m : Memory) : ∃ k' m' bs, ServedAll p ⟨xs.flatMap Exchange.answers ++ rest, k, out, m⟩ (xs.map Exchange.op)
      ⟨rest, k', out ++ xs.flatMap (Exchange.traffic p.bus.addr), m'⟩ bs := by
  induction xs generalizing k out m with
  | nil => exact ⟨k, m, [], by simpa using ServedAll.nil _⟩
  | cons x xs ih =>
    obtain ⟨k', m', bs, h⟩ := ih 0 (out ++ x.traffic p.bus.addr) ((codeCleared p x.1.1.reg m).write x.1.1.reg.toNat
      (x.1.1.set x.2 x.1.2))
    refine ⟨k', m', [x.1.1.set x.2 x.1.2] ++ bs, ?_⟩
    rw [List.flatMap_cons, List.flatMap_cons, List.append_assoc, ← List.append_assoc out]
    exact .cons (.rmw x.1.1 x.1.2 _ [x.2] [] _ k out m rfl) h

/-- Fields and values beside the bytes that are read for them. -/
theorem exchanges_zip {fs : List (RegField × Byte)} {gs : List Byte} (h : fs.length = gs.length) :
    (fs.zip gs).map Exchange.op = fs.map (fun fv => .rmw fv.1 fv.2) ∧
      (fs.zip gs).flatMap Exchange.answers = gs.flatMap fun g => [.ok [g], .ok []] := by
  constructor
  · conv_rhs => rw [← List.map_fst_zip h.le, List.map_map]
    rfl
  · conv_rhs => rw [← List.map_snd_zip h.ge, List.flatMap_map]
    rfl

/-- Plain writes of registers, one after the other. -/
theorem servedAll_writes (p : Config.Params) (xs : List (RegAddr × Byte)) (rest : List BusAnswer) (k : Nat)
    (out : List Output) (m : Memory) :
    ∃ k' m', ServedAll p ⟨List.replicate xs.length (.ok []) ++ rest, k, out, m⟩ (xs.map fun x => .write x.1 [x.2])
      ⟨rest, k', out ++ xs.map (fun x => .busWrite p.bus.addr x.1 [x.2]), m'⟩ [] := by
  induction xs generalizing k out m with
  | nil => exact ⟨k, m, by simpa using ServedAll.nil _⟩
  | cons x xs ih =>
    obtain ⟨k', m', h⟩ := ih 0 (out ++ [.busWrite p.bus.addr x.1 [x.2]]) (m.writeBytes x.1 [x.2])
    refine ⟨k', m', ?_⟩
    rw [List.map_cons, List.map_cons, List.append_cons]
    exact .cons (.write x.1 [x.2] [] _ k out m) h

/-! ### clearStatistics (42_sensor_accessors.md R131) -/

/-- A one-bit field's bit is its mask: 1 sets it and 0 clears it. -/
theorem fieldAt_set_bit (pos : PosBit) (b : Byte) :
    (fieldAt pos).set b 1#8 = b ||| 1#8 <<< pos.shift.val ∧
      (fieldAt pos).set b 0#8 = b &&& ~~~(1#8 <<< pos.shift.val) := by
  obtain ⟨reg, shift⟩ := pos
  simp only [RegField.set, fieldAt]
  revert b shift
  decide

/-- Settles O29: the plan is the three readModifyWrites, and each is answered. -/
theorem clearStatisticsPulsesThreeTimes : Obligations.ClearStatisticsPulsesThreeTimes := by
  intro s ms rest a b c reg bit hs hp hj hw hb
  let f := fieldAt s.par.drv.clearStat
  obtain ⟨k, m, bs, hserved⟩ :=
    servedAll_rmws s.par [((f, 1), a), ((f, 0), b), ((f, 1), c)] rest s.busTry s.out s.sensorRegs
  have hcall : Calls s .clearStatistics [.rmw f 1, .rmw f 0, .rmw f 1] (List.replicate 2 .main ++ ms) :=
    ⟨hs, hp, hj, hw, fun _ => rfl, nofun, rfl⟩
  obtain ⟨n, hsteps, _⟩ := hcall.steps_finish (busSide_of_answers hb ▸ hserved)
  refine ⟨_, hsteps, rfl, rfl, rfl, ?_⟩
  simp [State.drvFinish, onBus, drvResult, Exchange.traffic, f, fieldAt_set_bit, reg, bit]

end Sys2Proof.Proofs
end

section
/-! PROOF. The setters and the power bit of the driver: each is one readModifyWrite of its field, in every driver state
(42_sensor_accessors.md R128, R130, 41_register_codecs.md R106). -/

namespace Sys2Proof.Proofs

open Sys2Proof.Machine Sys2Proof.Laws

/-! ### Calls that write one field -/

/-- The calls that write one setting: the setters of R128, the disturber mask and the power bit. -/
def isSetter : DrvCall → Bool
  | .setMode _ | .setMinStrikes _ | .setDivider _ | .setNoiseFloor _ | .setWatchdog _ | .setSpike _ | .setTuningCaps _
  | .setDisturber _ | .power _ => true
  | _ => false

/-- A setter is taken as it stands, leaves the driver's state, and its caller gets the byte written. -/
theorem isSetter_facts : ∀ {c : DrvCall}, isSetter c = true →
    (∀ u : State, u.startCall c = .next (u.drvCall c)) ∧ (∀ d, drvAfter d c = d) ∧
      ∀ p b, drvResult p { call := c, todo := [], got := [b] } = .byte b
  | .setMode _, _ | .setMinStrikes _, _ | .setDivider _, _ | .setNoiseFloor _, _ | .setWatchdog _, _ | .setSpike _, _
  | .setTuningCaps _, _ | .setDisturber _, _ | .power _, _ => ⟨fun _ => rfl, fun _ => rfl, fun _ _ => rfl⟩

/-- The call is a setter whose one bus-level step stores `v` in field `f`. -/
structure SetsField (p : Config.Params) (c : DrvCall) (f : RegField) (v : Byte) : Prop where
  setter : isSetter c = true
  plan : drvPlan p c = some [.rmw f v]

/-- A setter whose two bus attempts succeed writes its field, and nothing else. -/
theorem SetsField.written {s : State} {c : DrvCall} {f : RegField} {v bits : Byte} {ms : List Move}
    (h : SetsField s.par c f v) (hs : s.sched = .driver c :: ms) (hp : s.phase = .idle) (hj : s.drvJob = none)
    (hw : s.waiting = []) (hbits : (v <<< f.shift) &&& f.mask = bits) :
    settingWritten { s with sched := ms } (step s) f.reg f.mask bits := by
  intro g g' rest hb hwf
  obtain ⟨hstarts, hkeeps, hresult⟩ := isSetter_facts h.setter
  have hclear : (codeCleared s.par f.reg s.sensorRegs).wf = true := clearCause_wf s f.reg 1 hwf
  have hcall : Calls s c [.rmw f v] ms := by
    refine ⟨hs, hp, hj, hw, hstarts, ?_, h.plan⟩
    rintro cfg src rfl
    exact nomatch h.setter
  have hserved := Served.rmw (p := s.par) f v _ g g' rest s.busTry s.out s.sensorRegs rfl
  have hafter : ∀ r, f.set r v = (r &&& ~~~f.mask) ||| bits := fun r => by rw [RegField.set, hbits]
  have hstep := hserved.drvStep (s := { s with sched := ms, busIn := .ok g :: .ok g' :: rest }) c [] []
  rw [resumed_nil, hafter] at hstep
  refine ⟨_, hcall.step.trans (congrArg _ (.trans ?_ (hstep.trans ?_))), wf_write _ f.reg _ hclear,
    read_write_reg _ _ _ hclear, fun a ha => ?_⟩
  · rw [← hb]
    rfl
  · simp [State.drvFinish, onBus, State.emit, hkeeps, hresult, hj]
  · exact (read_write_other _ _ _ _ ha).trans (clearCause_read s f.reg a ha)

/-- A value of the field's width fills no bit outside the field. -/
theorem fieldAt_bits {room : Nat} (pos : FieldPos room) {v : Byte} (h : v &&& (0xFF#8 >>> room) = v) :
    (v <<< (fieldAt pos).shift) &&& (fieldAt pos).mask = v <<< pos.shift.val := by
  rw [fieldAt_shift, fieldAt, ← BitVec.shiftLeft_and_distrib, h]

/-- The values of a level's range are of its field's width. -/
theorem level_bits {v : Nat} : (v ≤ 7 → BitVec.ofNat 8 v &&& 7#8 = BitVec.ofNat 8 v) ∧
    (v ≤ 15 → BitVec.ofNat 8 v &&& 15#8 = BitVec.ofNat 8 v) := by
  have small : ∀ n < 16, (n ≤ 7 → BitVec.ofNat 8 n &&& 7#8 = BitVec.ofNat 8 n) ∧
    BitVec.ofNat 8 n &&& 15#8 = BitVec.ofNat 8 n := by decide
  exact ⟨fun h => (small v (by omega)).1 h, fun h => (small v (by omega)).2⟩

theorem setNoiseFloor_sets (p : Config.Params) {v : Nat} (h : v ≤ 7) :
    SetsField p (.setNoiseFloor v) (fieldAt p.drv.noiseFloor) (BitVec.ofNat 8 v) := ⟨rfl, if_pos (decide_eq_true h)⟩

theorem setWatchdog_sets (p : Config.Params) {v : Nat} (h : v ≤ 15) :
    SetsField p (.setWatchdog v) (fieldAt p.drv.watchdog) (BitVec.ofNat 8 v) := ⟨rfl, if_pos (decide_eq_true h)⟩

theorem setSpike_sets (p : Config.Params) {v : Nat} (h : v ≤ 15) :
    SetsField p (.setSpike v) (fieldAt p.drv.spike) (BitVec.ofNat 8 v) := ⟨rfl, if_pos (decide_eq_true h)⟩

theorem tuningSteps_eq (pf : Int) : tuningSteps pf = BitVec.ofNat 8 (min 15 (pf.toNat / 8)) := by
  rw [← tuningSteps_toNat, BitVec.ofNat_toNat, BitVec.setWidth_eq]

/-- Settles O23: each call is a setter, and its value's bits are the statement's. -/
theorem settersAndPowerBitWriteTheirFieldOnly : Obligations.SettersAndPowerBitWriteTheirFieldOnly := by
  intro s ms c hs hp hj hw u d
  have written : ∀ {f : RegField} {v bits : Byte}, SetsField s.par c f v → (v <<< f.shift) &&& f.mask = bits →
      settingWritten u (step s) f.reg f.mask bits := fun h hbits => h.written hs hp hj hw hbits
  have power : ∀ {v bits : Byte}, SetsField s.par c (powerField s.par) v → v <<< 0 &&& 0x01#8 = bits →
      settingWritten u (step s) d.regGain 0x01 bits := written
  have gain : ∀ {v bits : Byte}, SetsField s.par c (gainField s.par) v → v <<< 1 &&& 0x3E#8 = bits →
      settingWritten u (step s) d.regGain 0x3E bits := written
  have strikes : ∀ {v bits : Byte}, SetsField s.par c (strikesField s.par) v → v <<< 4 &&& 0x30#8 = bits →
      settingWritten u (step s) d.regStatus 0x30 bits := written
  have divider : ∀ {v bits : Byte}, SetsField s.par c (dividerField s.par) v → v <<< 6 &&& 0xC0#8 = bits →
      settingWritten u (step s) d.regSrcMask 0xC0 bits := written
  refine ⟨?_, ?_, ?_, ?_, ?_, ?_, ?_, ?_, ?_, ?_, ?_, ?_, ?_, ?_, ?_, ?_⟩
  · rintro down rfl
    exact power ⟨rfl, rfl⟩ (by cases down <;> decide)
  · rintro rfl
    exact gain ⟨rfl, rfl⟩ (by decide)
  · rintro rfl
    exact gain ⟨rfl, rfl⟩ (by decide)
  · rintro rfl
    exact strikes ⟨rfl, rfl⟩ (by decide)
  · rintro rfl
    exact strikes ⟨rfl, rfl⟩ (by decide)
  · rintro rfl
    exact strikes ⟨rfl, rfl⟩ (by decide)
  · rintro rfl
    exact strikes ⟨rfl, rfl⟩ (by decide)
  · rintro rfl
    exact divider ⟨rfl, rfl⟩ (by decide)
  · rintro rfl
    exact divider ⟨rfl, rfl⟩ (by decide)
  · rintro rfl
    exact divider ⟨rfl, rfl⟩ (by decide)
  · rintro rfl
    exact divider ⟨rfl, rfl⟩ (by decide)
  · rintro v hv rfl
    exact written (setNoiseFloor_sets s.par hv) (fieldAt_bits d.noiseFloor (level_bits.1 hv))
  · rintro v hv rfl
    exact written (setWatchdog_sets s.par hv) (fieldAt_bits d.watchdog (level_bits.2 hv))
  · rintro v hv rfl
    exact written (setSpike_sets s.par hv) (fieldAt_bits d.spike (level_bits.2 hv))
  · rintro pf rfl
    rw [← tuningSteps_eq]
    exact written (f := fieldAt d.tuning) ⟨rfl, rfl⟩
      (fieldAt_bits d.tuning (tuningSteps_eq pf ▸ level_bits.2 (Nat.min_le_left 15 _)))
  · rintro enabled rfl
    refine written (f := fieldAt d.disturber) ⟨rfl, rfl⟩ ?_
    cases enabled
    · exact fieldAt_bits d.disturber rfl
    · exact (fieldAt_bits d.disturber (v := 0) rfl).trans (BitVec.zero_shiftLeft _)

end Sys2Proof.Proofs
end

section
/-! PROOF. What the driver reads back: `status()` is eight reads that change nothing but the source code a read clears
(42_sensor_accessors.md R132, 20_memory.md R49), and a level that was written is the one reported (R128). -/

namespace Sys2Proof.Proofs

open Sys2Proof.Machine Sys2Proof.Laws

/-! ### Runs of reads -/

/-- `b` is the byte that a read of register `x.1` obtains, among reads that begin in `s`, when the answer gives `x.2`. -/
def ByteRead (s : State) (x : RegAddr × List Byte) (b : Byte) : Prop :=
  ∃ t cleared, State.registersAfterReads t s cleared ∧ b = x.2.getD 0 (t.sensorRegs.read x.1.toNat)

theorem ByteRead.after {s t : State} {cleared : Bool} {x : RegAddr × List Byte} {b : Byte} (h : ByteRead t x b)
    (hp : t.par = s.par) (ht : t.registersAfterReads s cleared) : ByteRead s x b := by
  obtain ⟨u, cleared', hu, hb⟩ := h
  exact ⟨u, _, registersAfterReads_trans hp ht hu, hb⟩

/-- Reads one after the other: together they clear the source code if one of them does. -/
theorem servedAll_reads (s : State) (xs : List (RegAddr × List Byte)) (rest : List BusAnswer) (k : Nat)
    (out : List Output) :
    ∃ k' m' bs, ServedAll s.par ⟨xs.map (fun x => .ok x.2) ++ rest, k, out, s.sensorRegs⟩ (xs.map fun x => .read x.1)
        ⟨rest, k', out ++ xs.map (fun x => .busRead s.par.bus.addr x.1 1), m'⟩ bs ∧
      State.registersAfterReads { s with sensorRegs := m' } s ((xs.map Prod.fst).contains s.par.sensor.regInt) ∧
      List.Forall₂ (ByteRead s) xs bs := by
  induction xs generalizing s k out with
  | nil => exact ⟨k, s.sensorRegs, [], by simpa using ServedAll.nil _, registersAfterReads_of_eq rfl, .nil⟩
  | cons x xs ih =>
    obtain ⟨k', m', bs, hserved, hregs, hbytes⟩ := ih (s.clearCause x.1 1) 0 (out ++ [.busRead s.par.bus.addr x.1 1])
    have hfirst := clearCause_registers s x.1
    refine ⟨k', m', _ :: bs, ?_, ?_, .cons ⟨s, false, registersAfterReads_of_eq rfl, rfl⟩ ?_⟩
    · rw [List.map_cons, List.map_cons, List.map_cons, List.append_cons out]
      exact .cons (.read x.1 x.2 _ k out s.sensorRegs) hserved
    · rw [List.map_cons, List.contains_cons, Bool.beq_comm, beq_eq_decide]
      exact registersAfterReads_trans (t := s.clearCause x.1 1) rfl hfirst hregs
    · exact hbytes.imp fun _ _ h => h.after rfl hfirst

/-- The bytes obtained stand in the order of the reads. -/
theorem byteRead_getD {s : State} {xs : List (RegAddr × List Byte)} {bs : List Byte} {i : Nat} {x : RegAddr × List Byte}
    (h : List.Forall₂ (ByteRead s) xs bs) (hi : xs[i]? = some x) : ByteRead s x (bs.getD i 0) := by
  induction h generalizing i with
  | nil => simp at hi
  | cons hx _ ih =>
    cases i with
    | zero => cases hi; exact hx
    | succ i => exact ih hi

/-- Where the answers give the bytes, those are the bytes read. -/
theorem bytesRead_given {s : State} {ys : List (RegAddr × Byte)} {bs : List Byte}
    (h : List.Forall₂ (ByteRead s) (ys.map fun y => (y.1, [y.2])) bs) : bs = ys.map Prod.snd := by
  induction ys generalizing bs with
  | nil => cases h; rfl
  | cons y ys ih =>
    cases h with
    | cons hy hys =>
      obtain ⟨_, _, _, hb⟩ := hy
      rw [List.map_cons, ← ih hys, hb]
      rfl

/-! ### The snapshot, in arithmetic (41_register_codecs.md R102 to R107, 20_memory.md R45) -/

theorem fieldAt_get_eq {room : Nat} (pos : FieldPos room) (b : Byte) :
    (fieldAt pos).get b = BitVec.ofNat 8 (b.toNat / 2 ^ pos.shift.val % 2 ^ (8 - room)) := by
  have ones : ∀ j, (0xFF#8).getLsbD j = decide (j < 8) := fun j => BitVec.getLsbD_allOnes
  have hs := pos.shift.isLt
  apply BitVec.eq_of_getLsbD_eq
  intro i hi
  simp only [RegField.get, fieldAt, BitVec.getLsbD_ushiftRight, BitVec.getLsbD_and, BitVec.getLsbD_shiftLeft, ones,
    BitVec.getLsbD_ofNat, Nat.testBit_mod_two_pow, Nat.testBit_div_two_pow, BitVec.testBit_toNat,
    Nat.add_comm pos.shift.val]
  by_cases hw : i < 8 - room
  · have inByte : decide (i + pos.shift.val < 8) = true := decide_eq_true (by omega)
    have inField : decide (room + i < 8) = true := decide_eq_true (by omega)
    simp [inByte, inField, hw, hi]
  · have outside : decide (room + i < 8) = false := decide_eq_false (by omega)
    simp [outside, hw]

theorem fieldAt_get_bit (pos : PosBit) (b : Byte) : ((fieldAt pos).get b != 0) = b.getLsbD pos.shift.val := by
  obtain ⟨reg, shift⟩ := pos
  simp only [RegField.get, fieldAt]
  revert b shift
  decide

/-- The fields whose bits the source gives. -/
theorem sourceFields_get (p : Config.Params) (b : Byte) :
    ((powerField p).get b != 0) = b.getLsbD 0 ∧
    strikesDecode ((strikesField p).get b).toNat = [1, 5, 9, 16][b.toNat / 16 % 4]? := by
  simp only [RegField.get, powerField, strikesField]
  revert b
  decide

theorem gainCode_eq (b : Byte) : b.extractLsb' 1 5 = BitVec.ofNat 5 (b.toNat / 2) := by
  apply BitVec.eq_of_toNat_eq
  simp [Nat.shiftRight_eq_div_pow]

theorem dividerDecode_code (b : Byte) : dividerDecode (b.extractLsb' 6 2) = 16 * 2 ^ (b.toNat / 64) := by
  have hb := b.isLt
  simp [dividerDecode, Nat.shiftRight_eq_div_pow, Nat.mod_eq_of_lt (show b.toNat / 64 < 4 by omega)]

theorem statusSnap_eq (p : Config.Params) (gain nf wd sp st dm sm tu : Byte) :
    statusSnap p [gain, nf, wd, sp, st, dm, sm, tu] =
      { poweredDown := gain.getLsbD 0
        mode := gainMode (BitVec.ofNat 5 (gain.toNat / 2))
        noiseFloor := BitVec.ofNat 8 (nf.toNat / 2 ^ p.drv.noiseFloor.shift.val % 8)
        watchdog := BitVec.ofNat 8 (wd.toNat / 2 ^ p.drv.watchdog.shift.val % 16)
        spike := BitVec.ofNat 8 (sp.toNat / 2 ^ p.drv.spike.shift.val % 16)
        minStrikes := [1, 5, 9, 16][st.toNat / 16 % 4]?
        distanceMask := dm.getLsbD p.drv.distanceMask.shift.val
        divider := 16 * 2 ^ (sm.toNat / 64)
        tuningSteps := BitVec.ofNat 8 (tu.toNat / 2 ^ p.drv.tuning.shift.val % 16)
        tuningPf := 8 * (tu.toNat / 2 ^ p.drv.tuning.shift.val % 16) } := by
  have hsteps : (BitVec.ofNat 8 (tu.toNat / 2 ^ p.drv.tuning.shift.val % 16)).toNat =
      tu.toNat / 2 ^ p.drv.tuning.shift.val % 16 := Nat.mod_eq_of_lt (by omega)
  simp only [statusSnap, List.getD_cons_zero, List.getD_cons_succ, fieldAt_get_bit]
  simp only [fieldAt_get_eq, gainCode_eq, dividerDecode_code, tuningPf_eq, (sourceFields_get p _).1,
    (sourceFields_get p _).2, Nat.reduceSub, Nat.reducePow, hsteps]

/-! ### status() -/

/-- The registers that `status()` reads, in its order. -/
def statusRegs (p : Config.Params) : List RegAddr :=
  [p.drv.regGain, p.drv.noiseFloor.reg, p.drv.watchdog.reg, p.drv.spike.reg, p.drv.regStatus, p.drv.distanceMask.reg,
    p.drv.regSrcMask, p.drv.tuning.reg]

/-- Settles O28: the eight reads obtain the bytes given, and each changes no more than its own source code. -/
theorem statusReadsAndNeverMutates : Obligations.StatusReadsAndNeverMutates := by
  intro s ms rest gain nf wd sp st dm sm tu d steps regs hs hp hj hw hwake hb
  let ys := regs.zip [gain, nf, wd, sp, st, dm, sm, tu]
  obtain ⟨k, m, bs, hserved, hregs, hbytes⟩ := servedAll_reads s (ys.map fun y => (y.1, [y.2])) rest s.busTry s.out
  have hcall : Calls s .status (regs.map .read) (List.replicate 7 .main ++ ms) :=
    ⟨hs, hp, hj, hw, fun _ => rfl, nofun, rfl⟩
  obtain ⟨n, hsteps, hn⟩ := hcall.steps_finish (busSide_of_answers hb ▸ hserved)
  obtain rfl := hn hwake
  obtain rfl : bs = [gain, nf, wd, sp, st, dm, sm, tu] := bytesRead_given hbytes
  refine ⟨_, hsteps, rfl, rfl, rfl, rfl, rfl, rfl, rfl, ?_, hregs, ?_⟩
  · exact (drvFinish_same _ _).recordsAs
  · rw [← statusSnap_eq]
    rfl

/-! ### Levels that are read back (42_sensor_accessors.md R128) -/

/-- Clearing bits outside a mask changes nothing within it. -/
theorem and_not_and_of_disjoint (a : Byte) {m code : Byte} (h : m &&& code = 0) : (a &&& ~~~code) &&& m = a &&& m := by
  have hm : ~~~code &&& m = m := by
    ext i hi
    have hbit : m[i] = true → code[i] = false := by simpa using congrArg (fun x : Byte => x[i]) h
    simpa using hbit
  rw [BitVec.and_assoc, hm]

/-- Reads leave a field's value as it was where the field holds no bit of the source code. -/
theorem ByteRead.get_eq {s : State} {f : RegField} {b : Byte} (h : ByteRead s (f.reg, []) b)
    (hmask : f.reg = s.par.sensor.regInt → f.mask &&& (0x0F#8 <<< s.par.sensor.intShift) = 0)
    (hwf : s.sensorRegs.wf = true) : f.get b = f.get (s.sensorRegs.read f.reg.toNat) := by
  obtain ⟨t, cleared, ⟨hother, hnone, hcleared⟩, hb⟩ := h
  have hb' : b = t.sensorRegs.read f.reg.toNat := hb
  rw [hb']
  by_cases hreg : f.reg = s.par.sensor.regInt
  · cases cleared with
    | false => rw [hnone rfl]
    | true =>
      rw [hreg, (hcleared hwf).2 rfl, RegField.get, and_not_and_of_disjoint _ (hmask hreg), RegField.get]
  · rw [hother _ fun h => hreg (BitVec.eq_of_toNat_eq h)]

/-- `c` sets the level `v` in field `f`, the value fits there, and `status()` shows it as `level`. -/
structure SetsLevel (p : Config.Params) (c : DrvCall) (f : RegField) (level : StatusSnap → Byte) (v : Nat) : Prop where
  sets : SetsField p c f (BitVec.ofNat 8 v)
  fits : ∀ r, f.get (f.set r (BitVec.ofNat 8 v)) = BitVec.ofNat 8 v
  shown : ∃ i, (statusRegs p)[i]? = some f.reg ∧ ∀ bs, level (statusSnap p bs) = f.get (bs.getD i 0)

theorem setsLevel_of_cases {p : Config.Params} {c : DrvCall} {f : RegField} {level : StatusSnap → Byte} {v : Nat}
    (h : c = .setNoiseFloor v ∧ v ≤ 7 ∧ f = fieldAt p.drv.noiseFloor ∧ level = StatusSnap.noiseFloor ∨
      c = .setWatchdog v ∧ v ≤ 15 ∧ f = fieldAt p.drv.watchdog ∧ level = StatusSnap.watchdog ∨
      c = .setSpike v ∧ v ≤ 15 ∧ f = fieldAt p.drv.spike ∧ level = StatusSnap.spike) : SetsLevel p c f level v := by
  have small : ∀ {n : Nat}, n < 256 → v < n → (BitVec.ofNat 8 v).toNat < n := fun hn hv => by
    rwa [BitVec.toNat_ofNat, Nat.mod_eq_of_lt (by omega)]
  rcases h with ⟨rfl, hv, rfl, rfl⟩ | ⟨rfl, hv, rfl, rfl⟩ | ⟨rfl, hv, rfl, rfl⟩
  · exact ⟨setNoiseFloor_sets p hv, fun r => fieldAt_get_set _ r _ (small (by decide) (Nat.lt_succ_of_le hv)),
      1, rfl, fun _ => rfl⟩
  · exact ⟨setWatchdog_sets p hv, fun r => fieldAt_get_set _ r _ (small (by decide) (Nat.lt_succ_of_le hv)),
      2, rfl, fun _ => rfl⟩
  · exact ⟨setSpike_sets p hv, fun r => fieldAt_get_set _ r _ (small (by decide) (Nat.lt_succ_of_le hv)),
      3, rfl, fun _ => rfl⟩

/-- After a level is set, with an answer that gives no byte, the main context is free again and the field holds the level. -/
theorem SetsLevel.step {s : State} {c : DrvCall} {f : RegField} {level : StatusSnap → Byte} {v : Nat} {ms : List Move}
    {rest : List BusAnswer} (h : SetsLevel s.par c f level v) (hs : s.sched = .driver c :: ms) (hp : s.phase = .idle)
    (hj : s.drvJob = none) (hw : s.waiting = []) (hwf : s.sensorRegs.wf = true)
    (hb : s.busIn = .ok [] :: .ok [] :: rest) :
    ∃ t, step s = .next t ∧ t.par = s.par ∧ t.sched = ms ∧ t.phase = .idle ∧ t.drvJob = none ∧ t.waiting = [] ∧
      t.busIn = rest ∧ t.sensorRegs.wf = true ∧ f.get (t.sensorRegs.read f.reg.toNat) = BitVec.ofNat 8 v := by
  obtain ⟨m, hstep, hm, hread, _⟩ := h.sets.written hs hp hj hw rfl [] [] rest hb hwf
  exact ⟨_, hstep, rfl, rfl, hp, hj, hw, rfl, hm, (congrArg f.get hread).trans (h.fits _)⟩

/-- Settles O27: the level is stored in its field, and no read of `status()` changes the field. -/
theorem levelsAreReadBack : Obligations.LevelsAreReadBack := by
  intro s c f level v ms rest hc hmask hwf hp hj hw
  have hlevel := setsLevel_of_cases hc
  refine ⟨fun hs hb => ?_, fun hs hb => ?_⟩
  · obtain ⟨t, hstep, hpar, hs', hp', hj', hw', hb', hwf', hstored⟩ := hlevel.step hs hp hj hw hwf hb
    obtain ⟨k, m, bs, hserved, _, hbytes⟩ := servedAll_reads t [(f.reg, [])] rest t.busTry t.out
    have hcall : Calls t (.readField f) [.read f.reg] (List.replicate 0 .main ++ ms) :=
      ⟨hs', hp', hj', hw', fun _ => rfl, nofun, rfl⟩
    obtain ⟨n, hsteps, _⟩ := hcall.steps_finish (busSide_of_answers hb' ▸ hserved)
    refine ⟨_, (steps_succ s t 1 hstep).trans hsteps, rfl, rfl, ?_⟩
    cases hbytes with
    | @cons _ b _ _ hbyte hnil =>
      cases hnil
      have hget : f.get b = BitVec.ofNat 8 v := (hbyte.get_eq (hpar ▸ hmask) hwf').trans hstored
      simp [State.drvFinish, drvResult, hget]
  · obtain ⟨t, hstep, hpar, hs', hp', hj', hw', hb', hwf', hstored⟩ := hlevel.step hs hp hj hw hwf hb
    obtain ⟨k, m, bs, hserved, _, hbytes⟩ := servedAll_reads t ((statusRegs t.par).map (·, [])) rest t.busTry t.out
    have hcall : Calls t .status ((statusRegs t.par).map .read) (List.replicate 7 .main ++ ms) :=
      ⟨hs', hp', hj', hw', fun _ => rfl, nofun, rfl⟩
    obtain ⟨n, hsteps, _⟩ := hcall.steps_finish (busSide_of_answers hb' ▸ hserved)
    refine ⟨_, statusSnap t.par bs, (steps_succ s t 8 hstep).trans hsteps, rfl, rfl, ?_, ?_⟩
    · simp [State.drvFinish, drvResult, onBus]
    · obtain ⟨i, hi, hshown⟩ := hpar ▸ hlevel.shown
      have hbyte : ByteRead t (f.reg, []) (bs.getD i 0) := byteRead_getD hbytes (by rw [List.getElem?_map, hi]; rfl)
      rw [hshown, hbyte.get_eq (hpar ▸ hmask) hwf', hstored]

end Sys2Proof.Proofs
end

section
/-! PROOF. How the driver comes up (42_sensor_accessors.md R126, R127, R129): `begin()` is one retried read, and the
configuration sequence writes the calibration, waits, and writes the fields. -/

namespace Sys2Proof.Proofs

open Sys2Proof.Machine Sys2Proof.Laws

/-! ### begin() -/

theorem txFail_retries {α : Type} {s : State} {cause : Cause} (h : s.busTry < s.par.bus.retries) :
    s.txFail (α := α) cause = (.retry, { s.sleep s.par.bus.backoff with busTry := s.busTry + 1 }) := if_pos h

theorem txFail_exhausted {α : Type} {s : State} {cause : Cause} (h : ¬s.busTry < s.par.bus.retries) :
    s.txFail (α := α) cause = (.error (s.par.bus.retries + 1) cause, { s with busTry := 0 }) := if_neg h

/-- `begin()` in progress: its one read is still to do. -/
def beginJob (p : Config.Params) : DrvJob := { call := .begin, todo := [.read p.drv.regBegin], got := [] }

/-- The state in which `begin()`, called in `s`, makes the attempt that follows `k` failed ones. -/
def beginAttempt (s : State) (k : Nat) (ms : List Move) (answers : List BusAnswer) (m : Memory) (job : Option DrvJob) :
    State :=
  { s with sched := ms, busIn := answers, busTry := s.busTry + k, sensorRegs := m, drvJob := job,
           now := s.now + k * s.par.bus.backoff,
           wakeAt := if k = 0 then s.wakeAt else s.now + k * s.par.bus.backoff,
           out := s.out ++ List.replicate k (.busRead s.par.bus.addr s.par.drv.regBegin 1) }

/-- An attempt that fails with attempts left: `begin()` sleeps BACKOFF, and the next main move makes the next attempt. -/
theorem steps_beginFails {s : State} {k : Nat} {ms : List Move} {rest : List BusAnswer} {m : Memory}
    {job : Option DrvJob} {cause : Cause} {reached : Bool} (hleft : s.busTry + k < s.par.bus.retries) :
    let v := beginAttempt s k (.main :: ms) (.fail cause reached :: rest) m job
    ∃ m', step (v.drvStep (beginJob s.par)) =
        .next ((beginAttempt s (k + 1) ms rest m' (some (beginJob s.par))).drvStep (beginJob s.par)) ∧
      State.registersAfterReads { v with sensorRegs := m' } v
        (decide (s.par.drv.regBegin = s.par.sensor.regInt) && reached) := by
  intro v
  obtain ⟨m', hread, hregs⟩ := memRead_failed v s.par.drv.regBegin cause reached rest rfl
  have hsleeps : v.drvStep (beginJob s.par) =
      { v with busIn := rest, sensorRegs := m', out := v.out ++ [.busRead s.par.bus.addr s.par.drv.regBegin 1],
               wakeAt := v.now + s.par.bus.backoff, busTry := v.busTry + 1, drvJob := some (beginJob s.par) } := by
    simp only [State.drvStep, beginJob, hread.trans (txFail_retries hleft)]
    rfl
  refine ⟨m', ?_, hregs⟩
  rw [hsleeps, step_main _ ms rfl, microStep_job (j := beginJob s.par) rfl]
  simp [State.wake, beginAttempt, v, List.replicate_succ', Nat.add_mul, Nat.add_assoc]

/-- After its failed attempts, as many as the policy leaves, `begin()` makes one more. -/
theorem steps_beginAttempt {s : State} {ms : List Move} {fails : List (Cause × Bool)} {rest : List BusAnswer}
    (hs : s.sched = .driver .begin :: (List.replicate fails.length .main ++ ms)) (hp : s.phase = .idle)
    (hj : s.drvJob = none) (hw : s.waiting = []) (hleft : fails.length ≤ s.par.bus.retries - s.busTry)
    (hb : s.busIn = fails.map (fun f => .fail f.1 f.2) ++ rest) :
    ∃ m job, s.steps (fails.length + 1) =
        .next ((beginAttempt s fails.length ms rest m job).drvStep (beginJob s.par)) ∧
      (beginAttempt s fails.length ms rest m job).registersAfterReads s
        (decide (s.par.drv.regBegin = s.par.sensor.regInt) && fails.any (fun f => f.2)) := by
  induction fails using List.reverseRecOn generalizing ms rest with
  | nil =>
    have hcall : Calls s .begin [.read s.par.drv.regBegin] ms := ⟨hs, hp, hj, hw, fun _ => rfl, nofun, rfl⟩
    refine ⟨s.sensorRegs, s.drvJob, (steps_succ s _ 0 hcall.step).trans ?_, ?_⟩
    · rw [steps_zero, show s.busIn = rest from hb]
      simp [beginAttempt, beginJob]
    · rw [List.any_nil, Bool.and_false]
      exact registersAfterReads_of_eq rfl
  | append_singleton fails f ih =>
    rw [List.length_append, List.length_singleton] at hs hleft ⊢
    rw [List.replicate_succ', List.append_assoc] at hs
    rw [List.map_append, List.append_assoc] at hb
    obtain ⟨m, job, hsteps, hregs⟩ := ih hs (by omega) hb
    obtain ⟨m', hstep, hregs'⟩ := steps_beginFails (s := s) (k := fails.length) (ms := ms) (rest := rest) (m := m)
      (job := job) (cause := f.1) (reached := f.2) (by omega)
    refine ⟨m', some (beginJob s.par), ?_, ?_⟩
    · rw [steps_add s _ (fails.length + 1) 1 hsteps]
      exact steps_succ _ _ 0 hstep
    · rw [List.any_append, Bool.and_or_distrib_left, List.any_cons, List.any_nil, Bool.or_false]
      exact registersAfterReads_trans (by rfl) hregs hregs'

/-- Settles O24: the attempt after the failed ones decides. -/
theorem beginConfirmsTheDevice : Obligations.BeginConfirmsTheDevice := by
  intro s ms fails rest hs hp hj hw hu reg now wakeAt traffic
  refine ⟨fun g hleft hb => ?_, fun c reached hlen hb => ?_⟩
  · obtain ⟨m, job, hsteps, hregs⟩ := steps_beginAttempt hs hp hj hw hleft hb
    rw [beginJob, drvStep_read _ _ _ _ _ g rest rfl, drvAdvance_eq_resumed, resumed_nil] at hsteps
    refine ⟨_, hsteps, ?_, ?_⟩
    · simp [State.drvFinish, State.emit, State.clearCause, beginAttempt, hj, hu, drvAfter, drvResult, now, wakeAt,
        traffic, reg, List.replicate_succ']
    · have absorb : ∀ d e : Bool, (d && e || d) = d := by decide
      have hall := registersAfterReads_trans (by rfl) hregs (clearCause_registers _ reg)
      rw [show (beginAttempt s _ _ _ m job).par = s.par from rfl, absorb] at hall
      exact hall
  · obtain ⟨m, job, hsteps, hregs⟩ := steps_beginAttempt hs hp hj hw hlen.le hb
    obtain ⟨m', hread, hregs'⟩ := memRead_failed (beginAttempt s fails.length ms _ m job) reg c reached rest rfl
    have hnone : ¬s.busTry + fails.length < s.par.bus.retries := by omega
    have hfails : (beginAttempt s fails.length ms (.fail c reached :: rest) m job).drvStep (beginJob s.par) =
        { s with sched := ms, busIn := rest, busTry := 0, now := now, wakeAt := wakeAt, sensorRegs := m',
                 out := traffic ++ [.driver .deviceNotResponding] } := by
      simp only [State.drvStep, beginJob]
      rw [hread.trans (txFail_exhausted hnone)]
      simp [State.drvError, State.emit, beginAttempt, hj, now, wakeAt, traffic, reg, List.replicate_succ']
    refine ⟨_, hsteps.trans (congrArg _ hfails), rfl, ?_⟩
    rw [Bool.and_or_distrib_left, Bool.or_comm]
    exact registersAfterReads_trans (by rfl) hregs hregs'

/-! ### The configuration sequence -/

/-- After bus-level steps that are answered, a settle wait begins, and nothing waited before it. -/
theorem Calls.steps_settle {s : State} {c : DrvCall} {ops todo : List DrvOp} {d : Nat} {ms : List Move} {b : BusSide}
    {bs : List Byte} (h : Calls s c (ops ++ .settle d :: todo) (List.replicate ops.length .main ++ ms))
    (hserved : ServedAll s.par (busSide s) ops b bs) (hw : s.wakeAt ≤ s.now) :
    s.steps (ops.length + 1) = .next (resumed (onBus (({ s with sched := ms } : State).sleep d) b) c todo bs) := by
  have settles : ∀ (u : State) (got : List Byte),
      u.drvStep { call := c, todo := .settle d :: todo, got := got } = resumed (u.sleep d) c todo got := fun u got => by
    simp only [State.drvStep, drvAdvance_eq_resumed, List.append_nil]
  cases ops with
  | nil =>
    cases hserved
    exact (steps_succ s _ 0 h.step).trans (congrArg _ (settles _ []))
  | cons op ops =>
    obtain ⟨n, hsteps, hn⟩ := Calls.steps (ms := .main :: ms) (by simpa [List.replicate_succ'] using h) hserved
    obtain rfl := hn hw
    rw [List.length_cons, steps_add s _ (ops.length + 1) 1 hsteps]
    refine steps_succ _ _ 0 ((step_resumed (s := onBus { s with sched := .main :: ms } b) rfl c _ todo bs).trans ?_)
    have hawake : ({ s with sched := .main :: ms } : State).wake = { s with sched := .main :: ms } := by
      simp [State.wake, hw]
    rw [settles, show (onBus { s with sched := .main :: ms } b).wake =
      onBus ({ s with sched := .main :: ms } : State).wake b from rfl, hawake]
    exact congrArg _ (resumed_drvJob (onBus (({ s with sched := ms } : State).sleep d) b) _ c todo bs)

/-- A call that writes calibration registers, waits, and then writes fields, each attempt answered with success: the wait
begins when the calibration alone is on the bus, and the fields are written when it is over. -/
theorem Calls.steps_calibrateThenFields {s : State} {c : DrvCall} {cal : List (RegAddr × Byte)} {d : Nat}
    {xs : List Exchange} {ms : List Move} {rest : List BusAnswer}
    (h : Calls s c (cal.map (fun rb => .write rb.1 [rb.2]) ++ .settle d :: xs.map Exchange.op)
      (List.replicate (cal.length + xs.length) .main ++ ms))
    (hne : xs ≠ []) (hw : s.wakeAt ≤ s.now)
    (hb : s.busIn = List.replicate cal.length (.ok []) ++ (xs.flatMap Exchange.answers ++ rest)) :
    let calibrated := s.out ++ cal.map fun rb => .busWrite s.par.bus.addr rb.1 [rb.2]
    ∃ k m k' m' bs,
      s.steps (cal.length + 1) = .next
        { onBus (({ s with sched := List.replicate xs.length .main ++ ms } : State).sleep d)
            ⟨xs.flatMap Exchange.answers ++ rest, k, calibrated, m⟩ with
          drvJob := some { call := c, todo := xs.map Exchange.op, got := [] } } ∧
      s.steps (cal.length + 1 + xs.length) = .next
        ((onBus { (s.sleep d).wake with sched := ms }
          ⟨rest, k', calibrated ++ xs.flatMap (Exchange.traffic s.par.bus.addr), m'⟩).drvFinish
            { call := c, todo := [], got := bs }) := by
  intro calibrated
  have hops : xs.map Exchange.op ≠ [] := by simpa using hne
  obtain ⟨k, m, hwrites⟩ := servedAll_writes s.par cal (xs.flatMap Exchange.answers ++ rest) s.busTry s.out s.sensorRegs
  obtain ⟨k', m', bs, hfields⟩ := servedAll_rmws s.par xs rest k calibrated m
  have hcall : Calls s c (cal.map (fun rb => .write rb.1 [rb.2]) ++ .settle d :: xs.map Exchange.op)
      (List.replicate (cal.map fun rb => DrvOp.write rb.1 [rb.2]).length .main ++
        (List.replicate xs.length .main ++ ms)) := by
    rwa [List.length_map, ← List.append_assoc, ← List.replicate_add]
  have hcalibrates := hcall.steps_settle (busSide_of_answers hb ▸ hwrites) hw
  rw [List.length_map] at hcalibrates
  have hwritesFields := hfields.steps
    (s := ({ s with sched := List.replicate xs.length .main ++ ms } : State).sleep d) hops (ms := ms) (by simp) c [] []
  rw [List.length_map, List.append_nil, resumed_nil] at hwritesFields
  refine ⟨k, m, k', m', bs, hcalibrates.trans (congrArg _ (resumed_of_ne_nil _ _ hops _)), ?_⟩
  exact (steps_add s _ (cal.length + 1) xs.length hcalibrates).trans hwritesFields

/-- The bits that set the interrupt-output source, the other ones cleared first. -/
def sourceWrites (p : Config.Params) : OscSource → List (RegField × Byte)
  | .none => [(fieldAt p.drv.oscAntenna, 0), (fieldAt p.drv.oscSystem, 0), (fieldAt p.drv.oscInternal, 0)]
  | .antenna => [(fieldAt p.drv.oscSystem, 0), (fieldAt p.drv.oscInternal, 0), (fieldAt p.drv.oscAntenna, 1)]
  | .system => [(fieldAt p.drv.oscAntenna, 0), (fieldAt p.drv.oscInternal, 0), (fieldAt p.drv.oscSystem, 1)]
  | .internal => [(fieldAt p.drv.oscAntenna, 0), (fieldAt p.drv.oscSystem, 0), (fieldAt p.drv.oscInternal, 1)]

/-- The fields of a SensorConfig with their values, `code` being that of its minimum-strike count. -/
def configWrites (p : Config.Params) (c : SensorConfig) (code : Byte) : List (RegField × Byte) :=
  [(gainField p, if c.mode = .indoor then 0b10010#8 else 0b01110#8),
    (fieldAt p.drv.noiseFloor, BitVec.ofNat 8 c.noiseFloor), (fieldAt p.drv.watchdog, BitVec.ofNat 8 c.watchdog),
    (fieldAt p.drv.spike, BitVec.ofNat 8 c.spike), (strikesField p, code),
    (fieldAt p.drv.tuning, BitVec.ofNat 8 (min 15 (c.tuningPf.toNat / 8))),
    (fieldAt p.drv.disturber, if c.disturberEnabled = true then 0#8 else 1#8)]

/-- The plan of the configuration sequence where every setting is in its range. -/
theorem drvPlan_configure {p : Config.Params} {c : SensorConfig} {src : OscSource} {code : Byte} (hnf : c.noiseFloor ≤ 7)
    (hwd : c.watchdog ≤ 15) (hsp : c.spike ≤ 15) (hcode : strikesEncode c.minStrikes = some code) :
    drvPlan p (.configure c src) = some (p.drv.calibration.map (fun rb => .write rb.1 [rb.2]) ++
      .settle p.tSettleCfg :: (sourceWrites p src ++ configWrites p c code).map fun fv => .rmw fv.1 fv.2) := by
  have hsource : oscOps p src = (sourceWrites p src).map fun fv => .rmw fv.1 fv.2 := by cases src <;> rfl
  have hgain : gainPreset c.mode = if c.mode = .indoor then 0b10010#8 else 0b01110#8 := by cases c.mode <;> rfl
  simp [drvPlan, configOps, hcode, checked, hnf, hwd, hsp, disturberOps, hsource, configWrites, hgain, tuningSteps_eq]

/-- Settles O25: the plan is the calibration, the wait, and the ten fields, and each of its bus-level steps is answered. -/
theorem configurationSequenceLeadsToConfigured : Obligations.ConfigurationSequenceLeadsToConfigured := by
  intro s ms c src code gs rest d cal source fields traffic hs hp hj hw hu hwake hnf hwd hsp hcode hgs hb calibrated
  have hten : (source ++ fields).length = 10 := by cases src <;> rfl
  let xs : List Exchange := (source ++ fields).zip gs
  have hxs : xs.length = 10 := by rw [List.length_zip, hten, hgs]; rfl
  obtain ⟨hops, hanswers⟩ := exchanges_zip (hten.trans hgs.symm)
  have hsource : source = sourceWrites s.par src := by cases src <;> rfl
  have hplan := drvPlan_configure (p := s.par) (src := src) hnf hwd hsp (strikesEncode_eq_some.mpr hcode)
  rw [← hsource, show configWrites s.par c code = fields from rfl, ← hops] at hplan
  have hcall : Calls s (.configure c src) _ (List.replicate (cal.length + xs.length) .main ++ ms) :=
    ⟨hxs ▸ hs, hp, hj, hw, fun _ => rfl, fun _ _ _ => by simp [hu], hplan⟩
  obtain ⟨k, m, k', m', bs, hwaits, hends⟩ := hcall.steps_calibrateThenFields
    (List.ne_nil_of_length_eq_add_one hxs) hwake (by rw [hb, hanswers, List.append_assoc])
  rw [hxs] at hends
  refine ⟨⟨_, hwaits, rfl, rfl, rfl, hu, rfl⟩, _, hends, rfl, rfl, rfl, rfl, ?_, rfl, rfl, rfl, ?_, rfl⟩
  · simp [State.drvFinish, onBus, State.wake, State.sleep]
  · simp [State.recordsAs, State.drvFinish, onBus, State.wake, State.sleep]

end Sys2Proof.Proofs
end

section
/-! PROOF. How a capture comes in (43_event_capture.md): the edge that the debouncer takes, and READ_EVENT from its settle
sleep, through the read of the source code, to the row that classifies it. -/

namespace Sys2Proof.Proofs

open Sys2Proof.Machine Sys2Proof.Laws

/-! ### The edge (43_event_capture.md R140) -/

theorem edgeAccepted_iff (s : State) :
    s.edgeAccepted = true ↔ s.irqEn = true ∧ (s.pending = false ∨ s.par.tDebounce < s.now - s.lastEdge) := by
  simp [State.edgeAccepted]

/-- Settles O10: the model's test is R140's. -/
theorem edgeWritesDebounceStateOrNothing : Obligations.EdgeWritesDebounceStateOrNothing := fun s =>
  congrArg Host.Outcome.next (if_congr (edgeAccepted_iff s) rfl rfl)

/-! ### The command (43_event_capture.md R143, 60_exceptions.md R193) -/

theorem not_busy_of_idle {s : State} (hp : s.phase = .idle) (hj : s.drvJob = none) : ¬s.busy = true := by
  simp [State.busy, hp, hj]

/-- An error taken with the sequencer idle leaves PHASE as it is. -/
theorem raise_idle {s : State} (hp : s.phase = .idle) (st : Status) (d : RspData) :
    s.raise st d = { s with work := {}, running := false, busTry := 0, out := s.out ++ [.rsp st d] } := by
  rw [State.raise, ← hp]
  rfl

/-- The state in which a `READ_EVENT d` that the main context has accepted sleeps. -/
def polling (s : State) (d : Arg12) : State :=
  { s with phase := .pSleep, work := { byHost := true }, wakeAt := s.now + d.toNat }

/-- With the main context free, the readiness check decides. -/
theorem exec_readEvent_idle {s : State} (hp : s.phase = .idle) (hj : s.drvJob = none) (d : Arg12) :
    exec (.readEvent d) s =
      .next (if s.driver = .configured then polling s d else s.raise .notInitialized .nothing) :=
  congrArg Host.Outcome.next ((if_neg (not_busy_of_idle hp hj)).trans (if_congr decide_eq_true_iff rfl rfl))

/-- Settles O16, by the readiness check. -/
theorem readEventSleepsOrRaisesNotInitialized : Obligations.ReadEventSleepsOrRaisesNotInitialized := by
  intro d s hp hj
  rw [exec_readEvent_idle hp hj]
  refine ⟨fun ready => ?_, fun notReady => ?_⟩
  · rw [if_pos ready]
    rfl
  · rw [if_neg notReady, raise_idle hp]

/-! ### The four rows of the source code (41_register_codecs.md R100, 43_event_capture.md R143) -/

theorem returnEvent_none_toDrain {s : State} (h : ¬s.work.byHost = true) :
    s.returnEvent none = { s with phase := .sConsume, work := {} } := if_neg h

section
variable {s : State} (hp : s.phase = .sClassify)
include hp

theorem exec_srcLightning_classify (x : BitVec 3) :
    exec (.srcLightning x) s =
      .next { s with phase := .sReadDist, work := { s.work with code := 1#1 ++ x, ts := s.now } } :=
  congrArg Host.Outcome.next (if_pos hp)

theorem exec_srcDisturber_classify (x : BitVec 2) :
    exec (.srcDisturber x) s = .next (s.returnEvent (some (s.plainEvent .disturber (0b01#2 ++ x)))) :=
  congrArg Host.Outcome.next (if_pos hp)

theorem exec_srcNoise_classify (x : BitVec 1) :
    exec (.srcNoise x) s = .next (s.returnEvent (some (s.plainEvent .noise (0b00#2 ++ x ++ 1#1)))) :=
  congrArg Host.Outcome.next (if_pos hp)

theorem exec_srcNone_classify (x : BitVec 1) : exec (.srcNone x) s = .next (s.returnEvent none) :=
  congrArg Host.Outcome.next (if_pos hp)

end

/-- Settles O18: Lightning reads on, and what the other rows return goes to the drain or to the host. -/
theorem sourceRowsEndTheRead : Obligations.SourceRowsEndTheRead := by
  intro s hp
  refine ⟨exec_srcLightning_classify hp, fun drain => ?_, fun host => ?_⟩
  · have toDrain : ¬s.work.byHost = true := by simp [drain]
    refine ⟨fun x => ?_, fun x => ?_, fun x => ?_⟩
    · rw [exec_srcDisturber_classify hp, returnEvent_toDrain _ toDrain]
      rfl
    · rw [exec_srcNoise_classify hp, returnEvent_toDrain _ toDrain]
      rfl
    · rw [exec_srcNone_classify hp, returnEvent_none_toDrain toDrain]
  · refine ⟨fun x => ?_, fun x => ?_, fun x => ?_⟩
    · rw [exec_srcDisturber_classify hp, returnEvent_toHost _ host]
      rfl
    · rw [exec_srcNoise_classify hp, returnEvent_toHost _ host]
      rfl
    · rw [exec_srcNone_classify hp, returnEvent_toHost _ host]
      rfl

/-! ### The read of the source code (43_event_capture.md R143 to R145) -/

/-- The state in which S_READ_INT begins, when the sleep that is under way in `s` is over. -/
def sleepOver (s : State) (ms : List Move) : State :=
  { s with sched := ms, now := max s.now s.wakeAt, phase := .sReadInt }

/-- The state in which S_CLASSIFY begins, when the sleep that is under way in `s` is over and the read of the interrupt
source register has given `b`. -/
def sourceCodeRead (s : State) (ms : List Move) (b : Byte) (rest : List BusAnswer) : State :=
  { (s.clearCause s.par.sensor.regInt 1) with
    sched := ms, now := max s.now s.wakeAt, phase := .sClassify,
    work := { s.work with code := sourceCode s.par.sensor.intShift b }, busTry := 0, busIn := rest,
    out := s.out ++ [.busRead s.par.bus.addr s.par.sensor.regInt 1] }

/-- When the sleep is over, S_READ_INT begins at once. -/
theorem sourceCodeRead_sleepOver (s : State) (ms ms' : List Move) (b : Byte) (rest : List BusAnswer) :
    sourceCodeRead (sleepOver s ms) ms' b rest = sourceCodeRead s ms' b rest := by
  simp [sourceCodeRead, sleepOver, State.clearCause]

section
variable {s : State} {ms : List Move} (hj : s.drvJob = none)
include hj

/-- P_SLEEP ends when its sleep is over. -/
theorem step_sleep (hs : s.sched = .main :: ms) (hp : s.phase = .pSleep) : step s = .next (sleepOver s ms) := by
  rw [step_main s ms hs]
  simp [State.microStep, hj, hp, State.stepSleep, State.wake, sleepOver]

/-- S_READ_INT, when the sensor answers. -/
theorem step_readInt {b : Byte} {rest : List BusAnswer} (hs : s.sched = .main :: ms) (hp : s.phase = .sReadInt)
    (hb : s.busIn = .ok [b] :: rest) : step s = .next (sourceCodeRead s ms b rest) := by
  have hr : ({ s with sched := ms } : State).wake.readRegister = some s.par.sensor.regInt := by
    simp [State.readRegister, hp]
  rw [step_main s ms hs, microStep_read (s := ({ s with sched := ms } : State).wake) hj hr,
    memRead_ok ({ s with sched := ms } : State).wake _ 1 [b] rest hb, answerBytes_one]
  exact congrArg Host.Outcome.next (takeByte_int b hp)

/-- READ_EVENT, in the drain or for the host, from its sleep to S_CLASSIFY. -/
theorem steps_toClassify {b : Byte} {rest : List BusAnswer} (hs : s.sched = .main :: .main :: ms)
    (hp : s.phase = .pSleep) (hb : s.busIn = .ok [b] :: rest) : s.steps 2 = .next (sourceCodeRead s ms b rest) := by
  rw [← sourceCodeRead_sleepOver s (.main :: ms)]
  calc s.steps 2 = (sleepOver s (.main :: ms)).steps 1 := steps_succ _ _ 1 (step_sleep hj hs hp)
    _ = _ := steps_succ _ _ 0 (step_readInt (s := sleepOver s (.main :: ms)) hj rfl rfl hb)

/-- S_CLASSIFY, over a Disturber code that the host polls for. -/
theorem step_polledDisturber {x : BitVec 2} (hs : s.sched = .main :: ms) (hp : s.phase = .sClassify)
    (hc : s.work.code = 0b01#2 ++ x) (host : s.work.byHost = true) :
    step s = .next { s with
      sched := ms, now := max s.now s.wakeAt, phase := .idle, work := {},
      out := s.out ++ [.rsp .ok (.event (some
        { ts := max s.now s.wakeAt, kind := .disturber, distanceKm := none, energy := none, raw := 0b01#2 ++ x }))] } := by
  have row : decode .src4 s.work.code.toNat = .ok (.srcDisturber x) := by
    rw [hc]
    exact decode_encode_src (i := .srcDisturber x) rfl
  rw [step_main s ms hs, microStep_classifies (u := ({ s with sched := ms } : State).wake) hj hp row,
    exec_srcDisturber_classify (s := ({ s with sched := ms } : State).wake) hp,
    returnEvent_toHost (s := ({ s with sched := ms } : State).wake) _ host]
  rfl

/-- READ_EVENT for the host over a Disturber code, from its sleep to the answer. -/
theorem steps_polledDisturber {b : Byte} {rest : List BusAnswer} {x : BitVec 2}
    (hs : s.sched = .main :: .main :: .main :: ms) (hp : s.phase = .pSleep) (hb : s.busIn = .ok [b] :: rest)
    (hc : sourceCode s.par.sensor.intShift b = 0b01#2 ++ x) (host : s.work.byHost = true) :
    s.steps 3 = .next { (s.clearCause s.par.sensor.regInt 1) with
      sched := ms, now := max s.now s.wakeAt, phase := .idle, work := {}, busTry := 0, busIn := rest,
      out := s.out ++ [.busRead s.par.bus.addr s.par.sensor.regInt 1,
        .rsp .ok (.event (some { ts := max s.now s.wakeAt, kind := .disturber, distanceKm := none, energy := none,
                                 raw := 0b01#2 ++ x }))] } := by
  have answers := step_polledDisturber (s := sourceCodeRead s (.main :: ms) b rest) hj rfl rfl hc host
  calc s.steps 3 = (sourceCodeRead s (.main :: ms) b rest).steps 1 := steps_add _ _ 2 1 (steps_toClassify hj hs hp hb)
    _ = _ := steps_succ _ _ 0 answers
    _ = _ := by simp [steps_zero, sourceCodeRead, State.clearCause]

end

/-- Settles O44: the command begins the sleep, and the read answers its caller. -/
theorem polledEventGoesToTheCallerOnly : Obligations.PolledEventGoesToTheCallerOnly := by
  intro s d b rest x hp hj ready ht hb hc
  refine ⟨polling s d, (exec_readEvent_idle hp hj d).trans (by rw [if_pos ready]), ?_⟩
  rw [steps_polledDisturber (s := (polling s d).undisturbed 3) hj rfl rfl hb hc rfl]
  simp [polling, State.undisturbed, State.clearCause, hp, ht]

end Sys2Proof.Proofs
end

section
/-! PROOF. The commands of the event service (44_event_service.md R160 to R162, R174 to R177): with the main context free each
row is its one write, and STOP is its one write whatever the main context does. -/

namespace Sys2Proof.Proofs

open Sys2Proof.Machine Sys2Proof.Laws

/-- With the main context free, a row that tests `busy` does not wait. -/
theorem next_of_idle {s : State} (hp : s.phase = .idle) (hj : s.drvJob = none) (waits t : State) :
    (Host.Outcome.next (if s.busy then waits else t) : Host.Outcome State Fault Refusal) = .next t :=
  congrArg Host.Outcome.next (if_neg (not_busy_of_idle hp hj))

/-- Settles O11: START does not wait. -/
theorem startRegistersTheCallback : Obligations.StartRegistersTheCallback := fun _ hp hj => next_of_idle hp hj _ _

theorem step_stopPort {s : State} {ms : List Move} (h : s.sched = .stopPort :: ms) :
    step s = .next { s with sched := ms, stopReq := true } := by
  simp [step, State.stepMove, State.nextMove, h, State.move]

/-- Settles O12: the row has no test, and the port's move is the same write without the answer. -/
theorem stopLatchesInEveryState : Obligations.StopLatchesInEveryState := fun _ => ⟨rfl, fun _ => step_stopPort⟩

/-- Settles O13: SET_OBSERVER does not wait. -/
theorem setObserverReplacesTheSink : Obligations.SetObserverReplacesTheSink := fun _ _ hp hj => next_of_idle hp hj _ _

/-- Settles O14: TAIL does not wait. -/
theorem tailAnswersTheLastEvents : Obligations.TailAnswersTheLastEvents := fun _ _ hp hj => next_of_idle hp hj _ _

/-- The state in which a SERVICE that the main context has accepted stands at S_ENTRY. -/
def entering (s : State) : State := { s with phase := .sEntry, work := {} }

theorem exec_service_idle {s : State} (hp : s.phase = .idle) (hj : s.drvJob = none) :
    exec .service s = .next (entering s) := next_of_idle hp hj _ _

/-- Settles O15: neither SERVICE nor RUN waits. -/
theorem serviceAndRunEnterTheLoop : Obligations.ServiceAndRunEnterTheLoop := fun _ hp hj =>
  ⟨exec_service_idle hp hj, next_of_idle hp hj _ _⟩

end Sys2Proof.Proofs
end

section
/-! PROOF. The micro-steps of the service loop that read no sensor register (44_event_service.md R161 to R176): what each
phase's operation makes of the state it begins in, and so what the phase's step is. -/

namespace Sys2Proof.Proofs

open Sys2Proof.Machine Sys2Proof.Laws

/-! ### The phase's operation -/

/-- The state in which a scheduled move of the main context begins its micro-step: the sleep is over. -/
def woken (s : State) (ms : List Move) : State := ({ s with sched := ms } : State).wake

theorem step_woken {s : State} {ms : List Move} (hs : s.sched = .main :: ms) : step s = (woken s ms).microStep :=
  step_main s ms hs

section
variable {u : State} (hj : u.drvJob = none)
include hj

theorem microStep_entry (hp : u.phase = .sEntry) : u.microStep = .next u.stepEntry := by
  simp [State.microStep, hj, hp]

theorem microStep_consume (hp : u.phase = .sConsume) : u.microStep = .next u.stepConsume := by
  simp [State.microStep, hj, hp]

theorem microStep_sleep (hp : u.phase = .pSleep) : u.microStep = .next u.stepSleep := by
  simp [State.microStep, hj, hp]

theorem microStep_append (hp : u.phase = .sAppend) : u.microStep = .next u.stepAppend := by
  simp [State.microStep, hj, hp]

theorem microStep_observe (hp : u.phase = .sObserve) : u.microStep = .next u.stepObserve := by
  simp [State.microStep, hj, hp]

theorem microStep_throttle (hp : u.phase = .sThrottle) : u.microStep = .next u.stepThrottle := by
  simp [State.microStep, hj, hp]

theorem microStep_keepalive (hp : u.phase = .sKeepalive) : u.microStep = .next u.stepKeepalive := by
  simp [State.microStep, hj, hp]

theorem microStep_between (hp : u.phase = .rBetween) : u.microStep = .next u.stepBetween := by
  simp [State.microStep, hj, hp]

end

/-! ### S_ENTRY and R_BETWEEN (44_event_service.md R161, R176, R178) -/

theorem stepEntry_ready {u : State} (ready : u.driver = .configured) :
    u.stepEntry = { u with drainN := 0, phase := .sConsume, work := {} } := if_pos (decide_eq_true ready)

theorem stepEntry_notReady {u : State} (notReady : u.driver ≠ .configured) :
    u.stepEntry = u.raise .notInitialized .nothing := if_neg (by simpa [State.sensorReady] using notReady)

/-- Settles O33: the readiness check decides. -/
theorem entryChecksReadinessOnce : Obligations.EntryChecksReadinessOnce := by
  intro s ms hs hj hp
  rw [step_woken hs, microStep_entry (u := woken s ms) hj hp]
  exact ⟨fun ready => congrArg _ (stepEntry_ready ready), fun notReady => congrArg _ (stepEntry_notReady notReady)⟩

/-- Settles O39: STOP_REQ decides. -/
theorem runLooksAtStopBetweenIterations : Obligations.RunLooksAtStopBetweenIterations := by
  intro s ms hs hj hp
  rw [step_woken hs, microStep_between (u := woken s ms) hj hp]
  exact ⟨fun stop => congrArg _ (if_pos stop), fun noStop => congrArg _ (if_neg (Bool.eq_false_iff.mp noStop))⟩

/-! ### The consume (44_event_service.md R162, R164) -/

/-- The indivisible consume ends the drain, or takes the capture. -/
theorem stepConsume_whole {u : State} (whole : u.par.consumeSplit = false) :
    u.stepConsume =
      if u.drainN = u.par.drainCap ∨ u.pending = false ∨ u.now - u.lastEdge < u.par.tDwell then u.exitDrain
      else ({ u with pending := false } : State).consumed := by
  have hstep : u.stepConsume = u.stepConsumeWhole := if_neg (by simp [whole])
  rw [hstep, State.stepConsumeWhole]
  by_cases hcap : u.drainN = u.par.drainCap
  · rw [if_pos hcap, if_pos (.inl hcap)]
  · rw [if_neg hcap]
    rcases consume_cases u with ⟨hpend, hdwell, hgo⟩ | ⟨hends, hstop⟩
    · rw [hgo, if_neg (by simp [hcap, hpend, hdwell])]
    · rw [hstop, if_pos (.inr hends)]

/-- Settles O34, for the state in which the main context wakes. -/
theorem consumeTestsAndClearsInOneStep : Obligations.ConsumeTestsAndClearsInOneStep := by
  intro s ms hs hj hp whole
  rw [step_woken hs, microStep_consume (u := woken s ms) hj hp]
  exact congrArg _ (stepConsume_whole whole)

/-! ### APPEND (44_event_service.md R166) -/

theorem stepAppend_event {u : State} {e : Event} (he : u.work.ev = some e) :
    u.stepAppend = { u.append e with phase := .sObserve } := by
  simp [State.stepAppend, he]

/-! ### The sinks' answers (44_event_service.md R167, R173) -/

/-- What the block puts out after a sink's answer to a message: one warning for a failure. -/
def warningOf (a : SinkAnswer) : List Output := if a = .fail then [.warn] else []

theorem emitPublish_eq {s : State} {a : SinkAnswer} {rest : List SinkAnswer} (o : Output) (h : s.sinkIn = a :: rest) :
    s.emitPublish o = { s with sinkIn := rest, out := s.out ++ [o] ++ warningOf a } := by
  rw [State.emitPublish, drawSink_cons (s.emit o) a rest h]
  cases a with
  | ok => simp [warningOf, State.emit]
  | fail => rfl

/-- A forward is two messages, each with its warning. -/
theorem forward_eq {s : State} {a b : SinkAnswer} {rest : List SinkAnswer} (e : Event) (h : s.sinkIn = a :: b :: rest) :
    s.forward e = { s with
      sinkIn := rest,
      out := s.out ++ [s.eventMessage e] ++ warningOf a ++ [s.stateMessage] ++ warningOf b } := by
  rw [State.forward, emitPublish_eq _ h]
  exact emitPublish_eq _ rfl

/-! ### OBSERVE (44_event_service.md R167) -/

theorem stepObserve_event {u : State} {e : Event} (he : u.work.ev = some e) :
    u.stepObserve = { u.observe e with phase := .sThrottle } := by
  simp [State.stepObserve, he]

theorem observe_registered {s : State} {id : Arg12} {a : SinkAnswer} {rest : List SinkAnswer} (e : Event)
    (hobs : s.observer = some id) (hsink : s.sinkIn = a :: rest) :
    s.observe e = { s with sinkIn := rest, out := s.out ++ [.observer id e] } := by
  have hemit : s.observe e = s.emitObserver id e := by simp [State.observe, hobs]
  rw [hemit, State.emitObserver, drawSink_cons (s.emit _) a rest hsink]
  rfl

theorem observe_unregistered {s : State} (e : Event) (hobs : s.observer = none) : s.observe e = s := by
  simp [State.observe, hobs]

/-- Settles O36: the answer is taken and not looked at. -/
theorem observerFailureIsDiscarded : Obligations.ObserverFailureIsDiscarded := by
  intro s ms e hs hj hp he
  rw [step_woken hs, microStep_observe (u := woken s ms) hj hp, stepObserve_event (u := woken s ms) he]
  refine ⟨fun id a rest hobs hsink => ?_, fun hobs => ?_⟩
  · rw [observe_registered (s := woken s ms) e hobs hsink]
    rfl
  · rw [observe_unregistered (s := woken s ms) e hobs]
    rfl

/-! ### THROTTLE (44_event_service.md R169, R170, R173) -/

theorem stepThrottle_event {u : State} {e : Event} (he : u.work.ev = some e) :
    u.stepThrottle = { u.throttle e with phase := .sConsume, work := {} } := by
  simp [State.stepThrottle, he]

theorem throttle_forwards {s : State} {e : Event} {a b : SinkAnswer} {rest : List SinkAnswer}
    (hpass : s.throttlePass e = true) (hsink : s.sinkIn = a :: b :: rest) :
    s.throttle e = { s.markForwarded e with
      sinkIn := rest,
      out := s.out ++ [s.eventMessage e] ++ warningOf a ++ [(s.markForwarded e).stateMessage] ++ warningOf b } :=
  (if_pos hpass).trans (forward_eq e hsink)

theorem throttle_suppresses {s : State} {e : Event} (hpass : s.throttlePass e = false) : s.throttle e = s :=
  if_neg (by simp [hpass])

/-- The pass condition, with the time since the last forward of the Event's kind; Lightning passes whatever that time is. -/
theorem throttlePass_iff {s : State} {e : Event} {since : Nat}
    (hsince : e.kind ≠ .lightning → since = e.ts - s.lastAcc e.kind) :
    s.throttlePass e = true ↔ e.kind = .lightning ∨ s.lastSrc ≠ some e.kind ∨ s.par.tThrottle ≤ since := by
  by_cases hk : e.kind = .lightning
  · simp [State.throttlePass, hk]
  · simp [State.throttlePass, hk, hsince hk]

theorem throttlePass_lightning {s : State} {e : Event} (h : e.kind = .lightning) : s.throttlePass e = true := by
  simp [State.throttlePass, h]

/-- Settles O37: the pass condition decides between a forward and nothing. -/
theorem throttleForwardsOrSuppresses : Obligations.ThrottleForwardsOrSuppresses := by
  intro s ms e a b rest hs hj hp he hsink now agg since warn
  have hsince : e.kind ≠ .lightning → since = e.ts - s.lastAcc e.kind := by
    cases hk : e.kind <;> simp [since, hk, State.lastAcc]
  rw [step_woken hs, microStep_throttle (u := woken s ms) hj hp,
    stepThrottle_event (u := woken s ms) he]
  by_cases hpass : s.throttlePass e = true
  · rw [throttle_forwards (s := woken s ms) hpass hsink,
      if_pos ((throttlePass_iff hsince).mp hpass)]
    rfl
  · rw [throttle_suppresses (s := woken s ms) (Bool.eq_false_iff.mpr hpass),
      if_neg (mt (throttlePass_iff hsince).mpr hpass)]
    rfl

/-! ### KEEPALIVE (44_event_service.md R172, R176) -/

theorem keepaliveDue_iff (s : State) : s.keepaliveDue = true ↔ s.par.tKeepalive ≤ s.now - s.keepaliveTs :=
  decide_eq_true_iff

theorem keepalive_due {s : State} {a : SinkAnswer} {rest : List SinkAnswer} (hdue : s.keepaliveDue = true)
    (hsink : s.sinkIn = a :: rest) :
    s.keepalive = { s with
      keepaliveTs := s.now, sinkIn := rest, out := s.out ++ [s.stateMessage] ++ warningOf a } := by
  rw [State.keepalive, if_pos hdue, emitPublish_eq _ hsink]

theorem keepalive_notDue {s : State} (hdue : s.now - s.keepaliveTs < s.par.tKeepalive) : s.keepalive = s :=
  if_neg (by simpa [State.keepaliveDue] using hdue)

theorem endService_running {v : State} (h : v.running = true) :
    endService v = { v with phase := .rBetween, work := {} } := if_pos h

theorem endService_answers {v : State} (h : v.running = false) :
    endService v = { v with phase := .idle, work := {}, out := v.out ++ [.rsp .ok (.count v.drainN)] } :=
  if_neg (by simp [h])

/-- Settles O38: the interval decides what goes out, and RUNNING what comes next. -/
theorem keepaliveFiresExactlyWhenDue : Obligations.KeepaliveFiresExactlyWhenDue := by
  intro s ms a rest hs hj hp hsink now due sent
  rw [step_woken hs, microStep_keepalive (u := woken s ms) hj hp, stepKeepalive_eq]
  have hkeep : (woken s ms).keepalive = { s with
      sched := ms, now := now, keepaliveTs := if due then now else s.keepaliveTs,
      sinkIn := if due then rest else s.sinkIn, out := s.out ++ sent } := by
    by_cases hdue : due
    · rw [keepalive_due (s := woken s ms) ((keepaliveDue_iff _).mpr hdue) hsink]
      simp [sent, hdue, warningOf, woken, State.wake, State.stateMessage, now]
    · rw [keepalive_notDue (s := woken s ms) (Nat.not_le.mp hdue)]
      simp [sent, hdue, woken, State.wake, now]
  rw [hkeep]
  cases hrun : s.running with
  | true => simp [endService_running]
  | false => simp [endService_answers]

end Sys2Proof.Proofs
end

section
/-! PROOF. The main context alone (44_event_service.md R161, 10_state.md R22): what one micro-step of each phase of a SERVICE makes
of the state it begins in, whatever is scheduled after it, so that such steps compose. -/

namespace Sys2Proof.Proofs

open Sys2Proof.Machine Sys2Proof.Laws

/-! ### Runs of the main context alone -/

/-- `s` with `ms` as the moves to come. -/
def scheduled (s : State) (ms : List Move) : State := { s with sched := ms }

/-- The main context alone brings `s` to `t` in `k` micro-steps, whatever is scheduled after them. -/
def Runs (k : Nat) (s t : State) : Prop :=
  ∀ ms, (scheduled s (List.replicate k .main ++ ms)).steps k = .next (scheduled t ms)

theorem Runs.trans {j k : Nat} {s t u : State} (h : Runs j s t) (h' : Runs k t u) : Runs (j + k) s u := by
  intro ms
  rw [List.replicate_add, List.append_assoc, steps_add _ _ j k (h _)]
  exact h' ms

/-- The next `k` moves being the main context's, its run is what happens. -/
theorem Runs.undisturbed {k : Nat} {s t : State} (h : Runs k s t) :
    (s.undisturbed k).steps k = .next (scheduled t s.sched) := h s.sched

/-- The main context is about to run phase `p`: its sleep is over and no driver operation is in progress. -/
structure Awaits (s : State) (p : Phase) : Prop where
  awake : s.wakeAt ≤ s.now
  free : s.drvJob = none
  phase : s.phase = p

theorem Runs.one {s t : State} {p : Phase} (h : Awaits s p)
    (hstep : ∀ ms, (scheduled s ms).microStep = .next (scheduled t ms)) : Runs 1 s t := by
  intro ms
  have hwake : (scheduled s ms).wake = scheduled s ms := by
    simp [scheduled, State.wake, Nat.max_eq_left h.awake]
  refine steps_succ _ _ 0 ((step_main _ ms rfl).trans ?_)
  exact (congrArg State.microStep hwake).trans (hstep ms)

/-- The phase's operation `f` makes `t` of `s`. -/
theorem Runs.phase {f : State → State} {s t : State} {p : Phase}
    (hphase : ∀ {u : State}, u.drvJob = none → u.phase = p → u.microStep = .next (f u)) (h : Awaits s p)
    (hf : ∀ ms, f (scheduled s ms) = scheduled t ms) : Runs 1 s t :=
  .one h fun ms => (hphase (u := scheduled s ms) h.free h.phase).trans (congrArg _ (hf ms))

/-! ### The phases around the read -/

/-- `s` in phase `p` with the local values `w`. -/
def goesTo (s : State) (p : Phase) (w : Work) : State := { s with phase := p, work := w }

/-- `s` after its messages `os` have gone to the sinks, which have `rest` left to answer. -/
def sent (s : State) (rest : List SinkAnswer) (os : List Output) : State :=
  { s with sinkIn := rest, out := s.out ++ os }

theorem runs_entry {s : State} (h : Awaits s .sEntry) (ready : s.driver = .configured) :
    Runs 1 s (goesTo { s with drainN := 0 } .sConsume {}) :=
  .phase microStep_entry h fun ms => stepEntry_ready (u := scheduled s ms) ready

section
variable {s : State} (h : Awaits s .sConsume) (whole : s.par.consumeSplit = false)
include h whole

theorem runs_consume_takes (hcap : s.drainN ≠ s.par.drainCap) (hpend : s.pending = true)
    (hdwell : s.par.tDwell ≤ s.now - s.lastEdge) : Runs 1 s ({ s with pending := false } : State).consumed :=
  .phase microStep_consume h fun ms =>
    (stepConsume_whole (u := scheduled s ms) whole).trans (if_neg (by simp [scheduled, hcap, hpend, hdwell]))

theorem runs_consume_ends (hends : s.pending = false ∨ s.now - s.lastEdge < s.par.tDwell) : Runs 1 s s.exitDrain :=
  .phase microStep_consume h fun ms => (stepConsume_whole (u := scheduled s ms) whole).trans (if_pos (.inr hends))

end

theorem runs_append {s : State} {e : Event} (h : Awaits s .sAppend) (he : s.work.ev = some e) :
    Runs 1 s (goesTo (s.append e) .sObserve s.work) :=
  .phase microStep_append h fun ms => stepAppend_event (u := scheduled s ms) he

theorem runs_observe_unregistered {s : State} {e : Event} (h : Awaits s .sObserve) (he : s.work.ev = some e)
    (hobs : s.observer = none) : Runs 1 s (goesTo s .sThrottle s.work) :=
  .phase microStep_observe h fun ms => by
    rw [stepObserve_event (u := scheduled s ms) he, observe_unregistered (s := scheduled s ms) e hobs]
    rfl

theorem runs_observe_registered {s : State} {e : Event} {id : Arg12} {a : SinkAnswer} {rest : List SinkAnswer}
    (h : Awaits s .sObserve) (he : s.work.ev = some e) (hobs : s.observer = some id) (hsink : s.sinkIn = a :: rest) :
    Runs 1 s (goesTo (sent s rest [.observer id e]) .sThrottle s.work) :=
  .phase microStep_observe h fun ms => by
    rw [stepObserve_event (u := scheduled s ms) he, observe_registered (s := scheduled s ms) e hobs hsink]
    rfl

theorem runs_throttle_suppresses {s : State} {e : Event} (h : Awaits s .sThrottle) (he : s.work.ev = some e)
    (hpass : s.throttlePass e = false) : Runs 1 s (goesTo s .sConsume {}) :=
  .phase microStep_throttle h fun ms => by
    rw [stepThrottle_event (u := scheduled s ms) he, throttle_suppresses (s := scheduled s ms) hpass]
    rfl

theorem runs_throttle_forwards {s : State} {e : Event} {rest : List SinkAnswer} (h : Awaits s .sThrottle)
    (he : s.work.ev = some e) (hpass : s.throttlePass e = true) (hsink : s.sinkIn = .ok :: .ok :: rest) :
    Runs 1 s (goesTo (sent (s.markForwarded e) rest [s.eventMessage e, (s.markForwarded e).stateMessage]) .sConsume {}) :=
  .phase microStep_throttle h fun ms => by
    rw [stepThrottle_event (u := scheduled s ms) he, throttle_forwards (s := scheduled s ms) hpass hsink]
    simp [scheduled, goesTo, sent, warningOf, State.markForwarded, State.eventMessage, State.stateMessage]

theorem runs_keepalive_notDue {s : State} (h : Awaits s .sKeepalive) (hdue : s.now - s.keepaliveTs < s.par.tKeepalive)
    (hrun : s.running = false) : Runs 1 s (s.endOp.respond .ok (.count s.drainN)) :=
  .phase microStep_keepalive h fun ms => by
    rw [stepKeepalive_eq, keepalive_notDue (s := scheduled s ms) hdue, endService_answers (v := scheduled s ms) hrun]
    rfl

/-! ### The read phases -/

theorem runs_sleep {s : State} (h : Awaits s .pSleep) : Runs 1 s s.stepSleep :=
  .phase microStep_sleep h fun _ => rfl

/-- The state after an attempt of a read at `reg` that the sensor answers. -/
def answered (s : State) (reg : RegAddr) (rest : List BusAnswer) : State :=
  { s with sensorRegs := (s.clearCause reg 1).sensorRegs, busIn := rest, busTry := 0,
           out := s.out ++ [.busRead s.par.bus.addr reg 1] }

theorem microStep_readAnswered {u : State} {reg : RegAddr} {b : Byte} {rest : List BusAnswer} (hj : u.drvJob = none)
    (hr : u.readRegister = some reg) (hb : u.busIn = .ok [b] :: rest) :
    u.microStep = .next (takeByte (answered u reg rest) b) := by
  rw [microStep_read hj hr, memRead_ok u reg 1 [b] rest hb, answerBytes_one]
  rfl

/-- The sensor answers the attempt of the phase's read, and the byte is taken. -/
theorem Runs.read {s t : State} {p : Phase} {reg : RegAddr} {b : Byte} {rest : List BusAnswer} (h : Awaits s p)
    (hr : s.readRegister = some reg) (hb : s.busIn = .ok [b] :: rest)
    (ht : ∀ ms, takeByte (answered (scheduled s ms) reg rest) b = scheduled t ms) : Runs 1 s t :=
  .one h fun ms => (microStep_readAnswered (u := scheduled s ms) h.free hr hb).trans (congrArg _ (ht ms))

section
variable {s : State} {b l m : Byte} {kept : List Byte} {reg : RegAddr} {rest : List BusAnswer}
  (hb : s.busIn = .ok [b] :: rest)
include hb

theorem runs_readInt (h : Awaits s .sReadInt) :
    Runs 1 s (goesTo (answered s s.par.sensor.regInt rest) .sClassify
      { s.work with code := sourceCode s.par.sensor.intShift b }) :=
  .read h (by simp [State.readRegister, h.phase]) hb fun ms =>
    takeByte_int (s := answered (scheduled s ms) _ rest) b h.phase

theorem runs_readDist (h : Awaits s .sReadDist) :
    Runs 1 s (goesTo (answered s s.par.sensor.regDist rest) .sReadEnergy
      { s.work with dist := maskDistance s.par.sensor.distShift b, energyBytes := [] }) :=
  .read h (by simp [State.readRegister, h.phase]) hb fun ms =>
    takeByte_dist (s := answered (scheduled s ms) _ rest) b h.phase

theorem runs_readEnergy_kept (h : Awaits s .sReadEnergy) (hr : s.readRegister = some reg)
    (he : s.work.energyBytes = kept) (hl : kept.length < 2) :
    Runs 1 s (goesTo (answered s reg rest) .sReadEnergy { s.work with energyBytes := kept ++ [b] }) :=
  .read h hr hb fun ms => by
    rw [takeByte_energyKept (s := answered (scheduled s ms) reg rest) b h.phase (he ▸ hl), ← h.phase, ← he]
    rfl

theorem runs_readEnergy_last (h : Awaits s .sReadEnergy) (he : s.work.energyBytes = [l, m])
    (drain : s.work.byHost = false) :
    Runs 1 s (goesTo (answered s s.par.sensor.regMsb rest) .sAppend
      { ev := some (s.lightningEvent (assembleEnergy l m b)) }) :=
  .read h (by simp [State.readRegister, h.phase, he]) hb fun ms =>
    (takeByte_energyLast (s := answered (scheduled s ms) _ rest) b l m [] h.phase he).trans
      (returnEvent_toDrain (s := answered (scheduled s ms) _ rest) _ (Bool.eq_false_iff.mp drain))

end

/-- The last attempt of the phase's read fails and does not reach the sensor: the BusError is raised. -/
theorem runs_readError {s : State} {p : Phase} {reg : RegAddr} {c : Cause} {rest : List BusAnswer} (h : Awaits s p)
    (hr : s.readRegister = some reg) (hb : s.busIn = .fail c false :: rest) (hlast : s.par.bus.retries ≤ s.busTry) :
    Runs 1 s (({ s with busIn := rest, out := s.out ++ [.busRead s.par.bus.addr reg 1] } : State).raise .busError
      (.busFailure (s.par.bus.retries + 1) c)) :=
  .one h fun ms => by
    rw [microStep_read (s := scheduled s ms) h.free hr, memRead_fail (scheduled s ms) reg 1 c false rest hb]
    simp [scheduled, State.txFail, Nat.not_lt.mpr hlast, afterAttempt, State.raise, State.respond, State.emit]

section
variable {s : State} {x : BitVec 3} {y : BitVec 2} (h : Awaits s .sClassify)
include h

/-- S_CLASSIFY is the row whose word is the source code in hand. -/
theorem Runs.classify {t : State} {i : Instr} (hi : i.format = .src4) (hc : s.work.code.toNat = encode i)
    (hrow : ∀ ms, exec i (scheduled s ms) = .next (scheduled t ms)) : Runs 1 s t :=
  have hd : decode .src4 s.work.code.toNat = .ok i := hc ▸ decode_encode_src hi
  .one h fun ms => (microStep_classifies (u := scheduled s ms) h.free h.phase hd).trans (hrow ms)

theorem runs_classify_lightning (hc : s.work.code = 1#1 ++ x) :
    Runs 1 s (goesTo s .sReadDist { s.work with ts := s.now }) :=
  .classify (i := .srcLightning x) h rfl (congrArg BitVec.toNat hc) fun ms => by
    rw [exec_srcLightning_classify (s := scheduled s ms) h.phase, ← hc]
    rfl

theorem runs_classify_disturber (hc : s.work.code = 0b01#2 ++ y) (drain : s.work.byHost = false) :
    Runs 1 s (goesTo s .sAppend { ev := some (s.plainEvent .disturber (0b01#2 ++ y)) }) :=
  .classify (i := .srcDisturber y) h rfl (congrArg BitVec.toNat hc) fun ms => by
    rw [exec_srcDisturber_classify (s := scheduled s ms) h.phase,
      returnEvent_toDrain (s := scheduled s ms) _ (Bool.eq_false_iff.mp drain)]
    rfl

end

end Sys2Proof.Proofs
end

section
/-! PROOF. Whole SERVICE operations (44_event_service.md R161 to R173, R178): a SERVICE that nothing disturbs is the list of the
phases it goes through. -/

namespace Sys2Proof.Proofs

open Sys2Proof.Machine Sys2Proof.Laws

/-! ### What the operations share -/

/-- The state in which the SERVICE classifies the code of the capture it has taken, `b` being the byte that was read. -/
def captured (s : State) (b : Byte) (rest : List BusAnswer) : State :=
  goesTo { answered s s.par.sensor.regInt rest with pending := false, drainN := 1 } .sClassify
    { code := sourceCode s.par.sensor.intShift b }

/-- A SERVICE takes the capture that pends and reads its source code. -/
theorem runs_capture {s : State} {b : Byte} {rest : List BusAnswer} (hj : s.drvJob = none) (ready : s.driver = .configured)
    (whole : s.par.consumeSplit = false) (hw : s.wakeAt ≤ s.now) (hpend : s.pending = true)
    (hdwell : s.par.tDwell ≤ s.now - s.lastEdge) (hcap : 1 ≤ s.par.drainCap) (hb : s.busIn = .ok [b] :: rest) :
    Runs 4 (entering s) (captured s b rest) :=
  runs_entry (s := entering s) ⟨hw, hj, rfl⟩ ready
    |>.trans (runs_consume_takes ⟨hw, hj, rfl⟩ whole (Nat.ne_of_lt hcap) hpend hdwell)
    |>.trans (runs_sleep ⟨hw, hj, rfl⟩)
    |>.trans (runs_readInt hb ⟨hw, hj, rfl⟩)

/-- The Event of a Lightning that is classified in `s` with distance byte `d` and energy bytes `l`, `m`, `h`. -/
def strike (s : State) (d l m h : Byte) : Event :=
  { ts := s.now, kind := .lightning, distanceKm := some (maskDistance s.par.sensor.distShift d),
    energy := some (assembleEnergy l m h), raw := s.work.code }

/-- The state `s` after the three energy reads, which leave `rest` of the answers to come. -/
def energyRead (s : State) (rest : List BusAnswer) : State :=
  let p := s.par.sensor
  answered (answered (answered s p.regLsb rest) p.regMid rest) p.regMsb rest

/-- The state `s` after the four reads that follow a Lightning code, which leave `rest` of the answers to come. -/
def strikeRead (s : State) (rest : List BusAnswer) : State :=
  energyRead (answered s s.par.sensor.regDist rest) rest

/-- The energy is three reads, and the Event goes to the drain. -/
theorem runs_readEnergy {s : State} {l m e : Byte} {rest : List BusAnswer} (h : Awaits s .sReadEnergy)
    (he : s.work.energyBytes = []) (drain : s.work.byHost = false)
    (hb : s.busIn = .ok [l] :: .ok [m] :: .ok [e] :: rest) :
    Runs 3 s (goesTo (energyRead s rest) .sAppend { ev := some (s.lightningEvent (assembleEnergy l m e)) }) :=
  have hr : s.readRegister = some s.par.sensor.regLsb := by simp [State.readRegister, h.phase, he]
  runs_readEnergy_kept hb h hr he Nat.zero_lt_two
    |>.trans (runs_readEnergy_kept (kept := [l]) rfl ⟨h.awake, h.free, rfl⟩ rfl rfl Nat.one_lt_two)
    |>.trans (runs_readEnergy_last rfl ⟨h.awake, h.free, rfl⟩ rfl drain)

/-- A Lightning code is followed by four reads, and the drain has the Event in hand. -/
theorem runs_strike {s : State} {x : BitVec 3} {d l m e : Byte} {rest : List BusAnswer} (h : Awaits s .sClassify)
    (hc : s.work.code = 1#1 ++ x) (drain : s.work.byHost = false)
    (hb : s.busIn = .ok [d] :: .ok [l] :: .ok [m] :: .ok [e] :: rest) :
    Runs 5 s (goesTo (strikeRead s rest) .sAppend { ev := some (strike s d l m e) }) :=
  runs_classify_lightning h hc
    |>.trans (runs_readDist hb ⟨h.awake, h.free, rfl⟩)
    |>.trans (runs_readEnergy ⟨h.awake, h.free, rfl⟩ rfl drain rfl)

/-- The drain ends, no keepalive is due, and the SERVICE answers. -/
theorem runs_answer {s : State} (h : Awaits s .sConsume) (whole : s.par.consumeSplit = false)
    (hends : s.pending = false ∨ s.now - s.lastEdge < s.par.tDwell) (hdue : s.now - s.keepaliveTs < s.par.tKeepalive)
    (hrun : s.running = false) : Runs 2 s (s.endOp.respond .ok (.count s.drainN)) :=
  (runs_consume_ends h whole hends).trans (runs_keepalive_notDue ⟨h.awake, h.free, rfl⟩ hdue hrun)

section
variable {s : State} {e : Event} {id : Arg12} {a : SinkAnswer} {rest : List SinkAnswer} (h : Awaits s .sAppend)
  (he : s.work.ev = some e) (whole : s.par.consumeSplit = false) (hpend : s.pending = false) (hrun : s.running = false)
include h he whole hpend hrun

/-- With no observer, an Event in hand that the throttle suppresses is logged, and the SERVICE answers. -/
theorem runs_suppressed (hobs : s.observer = none) (hpass : s.throttlePass e = false)
    (hdue : s.now - s.keepaliveTs < s.par.tKeepalive) :
    Runs 5 s ((s.append e).endOp.respond .ok (.count s.drainN)) :=
  runs_append h he
    |>.trans (runs_observe_unregistered ⟨h.awake, h.free, rfl⟩ he hobs)
    |>.trans (runs_throttle_suppresses ⟨h.awake, h.free, rfl⟩ he hpass)
    |>.trans (runs_answer ⟨h.awake, h.free, rfl⟩ whole (.inl hpend) hdue hrun)

/-- An Event in hand that passes the throttle is logged, observed and forwarded, which restarts the keepalive's interval, and
the SERVICE answers. -/
theorem runs_forwarded (hobs : s.observer = some id) (hpass : s.throttlePass e = true)
    (hsink : s.sinkIn = a :: .ok :: .ok :: rest) (hka : 0 < s.par.tKeepalive) :
    Runs 5 s ((sent ((s.append e).markForwarded e) rest
      [.observer id e, s.eventMessage e, (s.markForwarded e).stateMessage]).endOp.respond .ok (.count s.drainN)) := by
  have run := runs_append h he
    |>.trans (runs_observe_registered ⟨h.awake, h.free, rfl⟩ he hobs hsink)
    |>.trans (runs_throttle_forwards ⟨h.awake, h.free, rfl⟩ he hpass rfl)
    |>.trans (runs_answer ⟨by simpa [goesTo, sent] using h.awake, by simpa [goesTo, sent] using h.free, rfl⟩
      (by simpa [goesTo, sent] using whole) (.inl (by simpa [goesTo, sent] using hpend))
      (by simpa [goesTo, sent] using hka) (by simpa [goesTo, sent] using hrun))
  simpa [goesTo, sent, State.endOp, State.respond, State.emit, State.append, State.markForwarded, State.eventMessage,
    State.stateMessage] using run

end

/-! ### The statements -/

/-- Settles O40: S_ENTRY, and a drain that ends at once. -/
theorem serviceWithNothingToDrain : Obligations.ServiceWithNothingToDrain := by
  intro s hp hj ready whole hrun hw hends hdue
  have run := runs_entry (s := entering s) ⟨hw, hj, rfl⟩ ready
    |>.trans (runs_answer ⟨hw, hj, rfl⟩ whole hends hdue hrun)
  refine ⟨entering s, exec_service_idle hp hj, run.undisturbed.trans ?_⟩
  simp [scheduled, goesTo, entering, State.endOp, State.respond, State.emit, hp]

/-- Settles O41: the capture is read, logged and suppressed, and then nothing is pending. -/
theorem suppressedDisturberIsLoggedOnly : Obligations.SuppressedDisturberIsLoggedOnly := by
  intro s b rest x hp hj ready whole hrun hw hpend hdwell hcap hobs ht hb hc hsrc hacc hdue e
  have hpass : s.throttlePass e = false := by
    simp [State.throttlePass, State.lastAcc, e, hsrc, Nat.not_le.mpr hacc]
  have run := runs_capture hj ready whole hw hpend hdwell hcap hb
    |>.trans (runs_classify_disturber ⟨hw, hj, rfl⟩ hc rfl)
    |>.trans (runs_suppressed ⟨hw, hj, rfl⟩ rfl whole rfl hrun hobs hpass hdue)
  refine ⟨entering s, exec_service_idle hp hj, run.undisturbed.trans ?_⟩
  simp [scheduled, goesTo, captured, answered, entering, State.clearCause, State.append, logAppend, State.plainEvent,
    State.endOp, State.respond, State.emit, hp, ht, e]

/-- Settles O42: five reads, the log, the observer, the forward, which restarts the keepalive's interval, and then nothing
is pending. -/
theorem lightningIsReadLoggedObservedForwarded : Obligations.LightningIsReadLoggedObservedForwarded := by
  intro s b d l m h rest x id a srest hp hj ready whole hrun hw hpend hdwell hcap hka ht hb hobs hsink hc e agg rd cleared
  have run := runs_capture hj ready whole hw hpend hdwell hcap hb
    |>.trans (runs_strike ⟨hw, hj, rfl⟩ hc rfl rfl)
    |>.trans (runs_forwarded ⟨hw, hj, rfl⟩ rfl whole rfl hrun hobs (throttlePass_lightning rfl) hsink hka)
  refine ⟨entering s, exec_service_idle hp hj, run.undisturbed.trans ?_⟩
  simp [scheduled, goesTo, captured, strikeRead, energyRead, answered, sent, entering, State.clearCause, State.append,
    logAppend, strike, State.endOp, State.respond, State.emit, State.markForwarded, State.eventMessage, State.stateMessage,
    Event.msg, hp, ht, hc, e, agg, rd, cleared]

/-- Settles O43: the capture is taken and its code read before the distance read fails. -/
theorem busErrorLosesTheConsumedCapture : Obligations.BusErrorLosesTheConsumedCapture := by
  intro s b c rest x hp hj ready whole hw hpend hdwell hcap ht hretries hb hc
  have run := runs_capture hj ready whole hw hpend hdwell hcap hb
    |>.trans (runs_classify_lightning ⟨hw, hj, rfl⟩ hc)
    |>.trans (runs_readError ⟨hw, hj, rfl⟩ rfl rfl (Nat.le_of_eq hretries))
  refine ⟨entering s, exec_service_idle hp hj, run.undisturbed.trans ?_⟩
  simp [scheduled, goesTo, captured, answered, entering, State.clearCause, State.raise, State.respond, State.emit,
    hp, ht, hretries]

end Sys2Proof.Proofs
end

section
/-! PROOF. How a RUN ends (44_event_service.md R176, R177; 60_exceptions.md R203): while an operation is in progress each
micro-step of the main context keeps RUNNING, but for the stop signal observed at R_BETWEEN and the errors of the SERVICE. -/

namespace Sys2Proof.Proofs

open Sys2Proof.Machine Sys2Proof.Laws

/-! ### The ways to end -/

/-- The micro-step from `u` to `t` ends a RUN: at R_BETWEEN, with NotInitializedError, or with the BusError of a read. -/
def EndsRun (u t : State) : Prop :=
  t.phase = .idle ∧
  ((u.phase = .rBetween ∧ u.stopReq = true ∧ t.stopReq = false ∧ t.out = u.out ++ [.rsp .ok .nothing]) ∨
    (u.phase = .sEntry ∧ u.driver ≠ .configured ∧ t.out = u.out ++ [.rsp .notInitialized .nothing]) ∨
    ((u.phase = .sReadInt ∨ u.phase = .sReadDist ∨ u.phase = .sReadEnergy) ∧
      ∃ c, t.out.getLast? = some (.rsp .busError (.busFailure (u.par.bus.retries + 1) c))))

theorem stepEntry_run {u : State} (hp : u.phase = .sEntry) :
    u.stepEntry.running = u.running ∨ EndsRun u u.stepEntry := by
  by_cases ready : u.driver = .configured
  · rw [stepEntry_ready ready]
    exact .inl rfl
  · rw [stepEntry_notReady ready]
    exact .inr ⟨rfl, .inr (.inl ⟨hp, ready, rfl⟩)⟩

theorem stepBetween_run {u : State} (hp : u.phase = .rBetween) :
    u.stepBetween.running = u.running ∨ EndsRun u u.stepBetween := by
  unfold State.stepBetween
  split
  · next stop => exact .inr ⟨rfl, .inl ⟨hp, stop, rfl, rfl⟩⟩
  · exact .inl rfl

/-- A BusError reports RETRIES + 1 attempts. -/
theorem memRead_error_attempts {s v : State} {reg : RegAddr} {n attempts : Nat} {c : Cause}
    (h : s.memRead reg n = (.error attempts c, v)) : attempts = s.par.bus.retries + 1 := by
  have hsame := busReadOnce_same s reg n
  unfold State.memRead at h
  split at h
  · cases h
  · next cause w heq =>
    rw [heq] at hsame
    rcases txFail_cases (α := List Byte) w cause with ⟨_, hretry⟩ | ⟨_, herror⟩
    · rw [hretry] at h
      cases h
    · rw [herror] at h
      cases h
      rw [hsame.par]

theorem reading_of_readRegister {s : State} {reg : RegAddr} (h : s.readRegister = some reg) :
    s.phase = .sReadInt ∨ s.phase = .sReadDist ∨ s.phase = .sReadEnergy := by
  unfold State.readRegister at h
  split at h <;> simp_all

theorem takeByte_running (s : State) (b : Byte) : (takeByte s b).running = s.running := by
  obtain ⟨_, _, _, h, _⟩ := takeByte_frame s b
  rw [h]

/-- An attempt of a read keeps RUNNING, unless it raises the BusError. -/
theorem afterAttempt_run {u : State} {reg : RegAddr} (hr : u.readRegister = some reg) :
    (afterAttempt (u.memRead reg 1)).running = u.running ∨ EndsRun u (afterAttempt (u.memRead reg 1)) := by
  cases hm : u.memRead reg 1 with
  | mk tx v =>
    have hv : v.running = u.running := (sameBlock_of_memRead hm).running
    cases tx with
    | done bs => exact .inl ((takeByte_running v _).trans hv)
    | retry => exact .inl hv
    | error n c =>
      refine .inr ⟨rfl, .inr (.inr ⟨reading_of_readRegister hr, c, ?_⟩)⟩
      rw [← memRead_error_attempts hm]
      simp [afterAttempt]

/-! ### The micro-steps that keep RUNNING -/

theorem stepConsume_running (u : State) : u.stepConsume.running = u.running := by
  cases hs : u.par.consumeSplit with
  | false =>
    rw [stepConsume_whole hs]
    split <;> rfl
  | true =>
    have hstep : u.stepConsume = u.stepConsumeSplit := if_pos hs
    rw [hstep]
    cases hw : u.work.split with
    | readPending =>
      rw [stepConsumeSplit_readPending hw]
      split <;> rfl
    | compare =>
      rw [stepConsumeSplit_compare hw]
      split <;> rfl
    | clear =>
      rw [stepConsumeSplit_clear hw]
      rfl

theorem returnEvent_running (u : State) (ev : Option Event) : (u.returnEvent ev).running = u.running := by
  rcases returnEvent_cases u ev with ⟨_, h⟩ | ⟨_, _, _, h⟩ | ⟨_, _, h⟩ <;> exact (congrArg State.running h :)

theorem stepAppend_running (u : State) : u.stepAppend.running = u.running := by
  unfold State.stepAppend
  split <;> rfl

theorem stepObserve_running (u : State) : u.stepObserve.running = u.running := by
  unfold State.stepObserve
  split
  · next e _ => exact (observe_same u e).running
  · rfl

theorem stepThrottle_running (u : State) : u.stepThrottle.running = u.running := by
  unfold State.stepThrottle
  split
  · next e _ =>
    rcases throttle_cases u e with ⟨_, h⟩ | ⟨_, h⟩
    · exact h.running
    · rw [h]
  · rfl

theorem stepKeepalive_running (u : State) : u.stepKeepalive.running = u.running := by
  have hkeep : u.keepalive.running = u.running := by
    rcases keepalive_cases u with ⟨_, h⟩ | ⟨_, h⟩
    · rw [h]
      exact (emitPublish_same u _).running
    · rw [h]
  rw [stepKeepalive_eq, endService]
  split <;> exact hkeep

/-- During an operation, a micro-step without a read keeps RUNNING or ends the RUN. -/
theorem effect_run {u t : State} (hp : u.phase ≠ .idle) (hr : u.readRegister = none) (h : Effect u t) :
    t.running = u.running ∨ EndsRun u t := by
  obtain ⟨hint, hdist, henergy⟩ := not_reading hr
  cases h with
  | idle | sleep | lightning => exact .inl rfl
  | accept _ _ _ _ hidle => exact absurd hidle hp
  | driver j _ => exact .inl (drvStep_same u j).running
  | entry _ hentry => exact stepEntry_run hentry
  | consume => exact .inl (stepConsume_running u)
  | plain | noEvent => exact .inl (returnEvent_running u _)
  | append => exact .inl (stepAppend_running u)
  | observe => exact .inl (stepObserve_running u)
  | throttle => exact .inl (stepThrottle_running u)
  | keepalive => exact .inl (stepKeepalive_running u)
  | between _ hbetween => exact stepBetween_run hbetween
  | readInt _ hread => exact absurd hread hint
  | dist _ _ _ _ hread => exact absurd hread hdist
  | energyByte _ _ hread | energy _ _ _ _ hread => exact absurd hread henergy
  | readRetry _ _ _ hread | readError _ _ _ _ _ hread => exact absurd hread (not_or.mpr ⟨hdist, henergy⟩)

/-- During an operation, a micro-step keeps RUNNING or ends the RUN. -/
theorem microStep_run {u t : State} (hp : u.phase ≠ .idle) (h : u.microStep = .next t) :
    t.running = u.running ∨ EndsRun u t := by
  cases hj : u.drvJob with
  | some j =>
    have hdrv : u.microStep = .next (u.drvStep j) := by simp [State.microStep, hj]
    rw [hdrv] at h
    cases h
    exact .inl (drvStep_same u j).running
  | none =>
    cases hr : u.readRegister with
    | none => exact effect_run hp hr (microStep_effect u t h)
    | some reg =>
      rw [microStep_read hj hr] at h
      cases h
      exact afterAttempt_run hr

/-! ### The moves -/

@[simp] theorem awake_running (s : State) : (awake s).running = s.running := by
  obtain ⟨ms, n, h⟩ := awake_eq s; rw [h]
@[simp] theorem awake_stopReq (s : State) : (awake s).stopReq = s.stopReq := by
  obtain ⟨ms, n, h⟩ := awake_eq s; rw [h]
@[simp] theorem awake_driver (s : State) : (awake s).driver = s.driver := by
  obtain ⟨ms, n, h⟩ := awake_eq s; rw [h]

/-- During an operation a request waits, or is a STOP. -/
theorem accepts_running {u t : State} (hp : u.phase ≠ .idle) (h : Accepts u t) : t.running = u.running := by
  cases h with
  | waits | stop => rfl
  | refused hidle | start hidle | service hidle | run hidle | readEvent _ hidle | notReady hidle | setObserver _ hidle
  | tail _ hidle | driver _ hidle => exact absurd hidle hp

/-- During an operation, only the main context's move can clear RUNNING. -/
theorem moved_running {u t : State} {m : Move} (hp : u.phase ≠ .idle) (hm : m ≠ .main) (h : Moved u m t) :
    t.running = u.running := by
  cases h with
  | main => exact absurd rfl hm
  | cmd _ _ ha | driver _ _ ha => exact accepts_running hp ha
  | _ => rfl

theorem nextMove_running (s : State) : s.nextMove.2.running = s.running := by
  obtain ⟨ms, n, h⟩ := nextMove_same s
  rw [h]

/-- Settles O58: what clears RUNNING is a main move, and of these the ones that end the RUN. -/
theorem runEndsOnlyOnStopOrError : Obligations.RunEndsOnlyOnStopOrError := by
  intro s t hp hrun h hstopped
  have main : s.nextMove.1 = .main := by
    by_contra hm
    have hkept := moved_running (by rwa [nextMove_phase]) hm (step_moved s t h)
    rw [hstopped, nextMove_running, hrun] at hkept
    cases hkept
  rw [step_main_awake main] at h
  rcases microStep_run (by simpa using hp) h with hkept | hend
  · rw [hstopped, awake_running, hrun] at hkept
    cases hkept
  · exact ⟨main, by simpa [EndsRun] using hend⟩

end Sys2Proof.Proofs
end

section
/-! PROOF. What reset leaves, and the hazard of the debouncer (70_reset_and_hazards.md R230, R243, R249): with the indivisible
consume a pending capture goes away only into the drain's read; with the split consume an edge may fall between the compare
and the clear, and is erased. -/

namespace Sys2Proof.Proofs

open Sys2Proof.Machine Sys2Proof.Laws

/-! ### Reset (70_reset_and_hazards.md R230) -/

/-- Settles O47: the reset state is a record of these values. -/
theorem resetLeavesTheTableOfState : Obligations.ResetLeavesTheTableOfState :=
  ⟨rfl, rfl, rfl, rfl, rfl, rfl, rfl, rfl, rfl, rfl, rfl, rfl, rfl, rfl⟩

/-! ### The indivisible consume (70_reset_and_hazards.md R243) -/

/-- A go of the consume hands the capture to the drain's read. -/
theorem step_consumed {s : State} (whole : s.par.consumeSplit = false) (h : s.aboutToConsume) :
    step s = .next ({ awake s with pending := false } : State).consumed := by
  obtain ⟨hm, hj, hp, hcap, hpend, hdwell⟩ := h
  have hgo : ¬((awake s).drainN = (awake s).par.drainCap ∨ (awake s).pending = false ∨
      (awake s).now - (awake s).lastEdge < (awake s).par.tDwell) := by
    simp [hcap, hpend, hdwell]
  rw [step_main_awake hm, microStep_consume (by simpa using hj) (by simpa using hp),
    stepConsume_whole (by simpa using whole), if_neg hgo]

/-- A pending capture is still pending after a step, unless the step is a go of the consume. -/
theorem step_pending {s t : State} (whole : s.par.consumeSplit = false) (hpend : s.pending = true) (h : step s = .next t) :
    t.pending = true ∨ s.aboutToConsume := by
  cases ht : t.pending with
  | true => exact .inl rfl
  | false =>
    obtain ⟨_, _, _, hgo⟩ := (eachDebounceFieldHasOneWriter s t h).2 hpend ht
    exact .inr (hgo whole)

/-- Settles O52, by induction on the length of the run: its first step leaves the capture to the rest of the run, or takes it. -/
theorem pendingCaptureSurvivesUntilConsumed : Obligations.PendingCaptureSurvivesUntilConsumed := by
  intro k
  induction k with
  | zero =>
    intro s t _ hpend h
    cases h
    exact .inl hpend
  | succ k ih =>
    intro s t whole hpend h
    obtain ⟨s', hs⟩ := noStateIsStuck s
    rcases step_pending whole hpend hs with hpend' | hgo
    · have whole' : s'.par.consumeSplit = false := by
        rw [(parametersAreConstantAndTimeNeverDecreases s s' hs).1, whole]
      rw [steps_succ s s' k hs] at h
      refine (ih s' t whole' hpend' h).imp_right ?_
      rintro ⟨j, u, v, hjk, hu, hgo, hv, taken⟩
      exact ⟨j + 1, u, v, Nat.succ_lt_succ hjk, (steps_succ s s' j hs).trans hu, hgo,
        (steps_succ s s' (j + 1) hs).trans hv, taken⟩
    · exact .inr ⟨0, s, _, Nat.succ_pos k, steps_zero s, hgo, steps_succ s _ 0 (step_consumed whole hgo), rfl, rfl, rfl⟩

/-! ### The split consume (70_reset_and_hazards.md R249, program P5) -/

/-- Program P5 where its SERVICE begins to consume: the capture of time 100 is pending at time 110, and the next edge falls
before the third micro-step. -/
def splitRace : State :=
  { State.reset with
    par := { consumeSplit := true }, now := 110, irqEn := true, pending := true, lastEdge := 100, phase := .sConsume,
    driver := .configured, sched := [.main, .main, .irq 1, .main] }

/-- PENDING has been read. -/
def splitRaceRead : State := { splitRace with sched := [.main, .irq 1, .main], work := { split := .compare } }

/-- The dwell of the first edge has been compared. -/
def splitRaceCompared : State := { splitRace with sched := [.irq 1, .main], work := { split := .clear } }

/-- The second edge has been accepted. -/
def splitRaceEdge : State := { splitRaceCompared with sched := [.main], lastEdge := 110 }

/-- Its capture has been cleared with the first one. -/
def splitRaceErased : State := ({ splitRaceEdge with sched := [], pending := false } : State).consumed

/-- Nothing but the capture, the time and the phase differs from reset, and the callback that captures is registered. -/
theorem splitRace_inv : splitRace.Inv :=
  { resetHasTheInvariant with
    times := by simp [State.timesOk, splitRace, State.reset]
    events := by simp [State.eventsOk, splitRace, State.reset]
    drain := by simp [State.drainOk, splitRace, State.reset]
    context := by simp [State.contextOk, splitRace, State.reset]
    capture := fun _ => rfl }

theorem splitRace_acceptsEdge : splitRaceCompared.aboutToAcceptEdge :=
  ⟨rfl, (edgeAccepted_iff _).mpr ⟨rfl, .inr (by decide)⟩⟩

theorem splitRace_reads : step splitRace = .next splitRaceRead := by
  obtain ⟨reads, _, _⟩ := splitConsumeIsThreeMicroSteps splitRace [.main, .irq 1, .main] rfl rfl rfl rfl
  exact reads rfl

theorem splitRace_compares : step splitRaceRead = .next splitRaceCompared := by
  obtain ⟨_, compares, _⟩ := splitConsumeIsThreeMicroSteps splitRaceRead [.irq 1, .main] rfl rfl rfl rfl
  exact compares rfl

theorem splitRace_edge : step splitRaceCompared = .next splitRaceEdge := step_accepted_edge splitRace_acceptsEdge

theorem splitRace_clears : step splitRaceEdge = .next splitRaceErased := by
  obtain ⟨_, _, clears⟩ := splitConsumeIsThreeMicroSteps splitRaceEdge [] rfl rfl rfl rfl
  exact clears rfl

/-- Settles O53, by the run of program P5: the read is 0 ticks after the erased edge. -/
theorem splitConsumeCanEraseAnEdge : Obligations.SplitConsumeCanEraseAnEdge := by
  have two : splitRace.steps 2 = .next splitRaceCompared :=
    (steps_succ _ _ 1 splitRace_reads).trans (steps_succ _ _ 0 splitRace_compares)
  have three : splitRace.steps 3 = .next splitRaceEdge :=
    (steps_add _ _ 2 1 two).trans (steps_succ _ _ 0 splitRace_edge)
  have four : splitRace.steps 4 = .next splitRaceErased :=
    (steps_add _ _ 3 1 three).trans (steps_succ _ _ 0 splitRace_clears)
  exact ⟨splitRace, splitRaceCompared, splitRaceEdge, splitRaceErased, splitRace_inv, rfl, rfl, rfl, rfl,
    two, rfl, rfl, rfl, splitRace_acceptsEdge, three, rfl, rfl, four, rfl, rfl, rfl, by decide⟩

end Sys2Proof.Proofs
end
